-- ==== Sys2Proof/Word.lean ====
section
/-! DEFINITION. The widths of the rsteglib DCT engine (00_scope.md R13). -/

namespace Sys2Proof

/-- A host data word, a CSR, a command word, a block-buffer word (00_scope.md R13: 32 bits). -/
abbrev Word := BitVec 32

/-- One byte of IMG or MSG, one sample, one divisor (00_scope.md R13: 8 bits). -/
abbrev Byte := BitVec 8

/-- An engine offset, as `bus_addr` carries it (20_memory.md R56: 25 bits). -/
abbrev Offset := BitVec 25

/-- A block buffer: 64 words, index `row*8 + col` (10_state.md R47 to R49, 00_scope.md R17). -/
abbrev Block := Vector Word 64

/-- 64 exact integers, the values of a block before they are narrowed to words (00_scope.md R14). -/
abbrev IntBlock := Vector Int 64

end Sys2Proof
end

