-- ==== Sys2Proof/Syntax.lean ====
section
/-! DEFINITION. The commands of the engine, one constructor per row of the opcode map (30_encoding.md R87). -/

namespace Sys2Proof

/-- A command (30_encoding.md R87). The operands are those of R86 and R90: the payload bit of EMBED and the
BlockQueue entry index of TILE_LOAD and TILE_STORE. -/
inductive Instr where
  /-- NOP (40_command.md R97). -/
  | nop
  /-- ENCODE (45_codec.md R149). -/
  | encode
  /-- DECODE (45_codec.md R155). -/
  | decode
  /-- FDCT (41_transform.md R113). -/
  | fdct
  /-- IDCT (41_transform.md R114). -/
  | idct
  /-- QUANT (42_quantizer.md R123). -/
  | quant
  /-- DEQUANT (42_quantizer.md R124). -/
  | dequant
  /-- EMBED b (44_bitstream.md R141). -/
  | embed (b : Bool)
  /-- EXTRACT (44_bitstream.md R142). -/
  | extract
  /-- TILE_LOAD idx (43_tiler.md R129). -/
  | tileLoad (idx : Nat)
  /-- TILE_STORE idx (43_tiler.md R130). -/
  | tileStore (idx : Nat)
  deriving DecidableEq, Repr

/-- The mnemonic of 30_encoding.md R87. -/
def Instr.mnemonic : Instr → String
  | .nop => "NOP"
  | .encode => "ENCODE"
  | .decode => "DECODE"
  | .fdct => "FDCT"
  | .idct => "IDCT"
  | .quant => "QUANT"
  | .dequant => "DEQUANT"
  | .embed _ => "EMBED"
  | .extract => "EXTRACT"
  | .tileLoad _ => "TILE_LOAD"
  | .tileStore _ => "TILE_STORE"

end Sys2Proof
end

