-- ==== Sys2Proof/WellFormed.lean ====
section
/-! DEFINITION. Which commands have a command word: the operand ranges of 30_encoding.md R86 and R90. -/

namespace Sys2Proof

/-- A command is well formed when its operands fit their fields: `0 ≤ idx < 2^24` (30_encoding.md R90). -/
def Instr.wf : Instr → Bool
  | .nop => true
  | .encode => true
  | .decode => true
  | .fdct => true
  | .idct => true
  | .quant => true
  | .dequant => true
  | .embed _ => true
  | .extract => true
  | .tileLoad idx => decide (idx < 2 ^ 24)
  | .tileStore idx => decide (idx < 2 ^ 24)

end Sys2Proof
end

