-- ==== Sys2Proof/Decode.lean ====
section
/-! DEFINITION. Decoding and encoding of the command word (30_encoding.md). -/

namespace Sys2Proof

/-- Why a word is illegal: the four conditions of 30_encoding.md R88. -/
inductive Illegal where
  /-- OP is 0xB to 0xF. -/
  | reservedOp
  /-- RSV is not 0. -/
  | reservedBits
  /-- B = 1 with OP other than EMBED. -/
  | bitOutsideEmbed
  /-- IDX is not 0 with OP other than TILE_LOAD and TILE_STORE. -/
  | indexOutsideTile
  deriving DecidableEq, Repr

/-- Field OP, bits 3:0 (30_encoding.md R86). -/
def opField (w : Word) : BitVec 4 := w.extractLsb' 0 4

/-- Field B, bit 4 (30_encoding.md R86). -/
def bField (w : Word) : Bool := w.getLsbD 4

/-- Field RSV, bits 7:5 (30_encoding.md R86). -/
def rsvField (w : Word) : BitVec 3 := w.extractLsb' 5 3

/-- Field IDX, bits 31:8 (30_encoding.md R86). -/
def idxField (w : Word) : BitVec 24 := w.extractLsb' 8 24

/-- Decoding of a command word: the illegal words of 30_encoding.md R88 are refused with their reason, every other word is
the row of R87 that its OP selects, with the operands of R86 (no sign extension, no scaling). -/
def decode (w : Word) : Except Illegal Instr :=
  if rsvField w ≠ 0 then .error .reservedBits
  else if bField w = true ∧ opField w ≠ 0x7#4 then .error .bitOutsideEmbed
  else if idxField w ≠ 0 ∧ opField w ≠ 0x9#4 ∧ opField w ≠ 0xA#4 then .error .indexOutsideTile
  else
    match (opField w).toNat with
    | 0x0 => .ok .nop
    | 0x1 => .ok .encode
    | 0x2 => .ok .decode
    | 0x3 => .ok .fdct
    | 0x4 => .ok .idct
    | 0x5 => .ok .quant
    | 0x6 => .ok .dequant
    | 0x7 => .ok (.embed (bField w))
    | 0x8 => .ok .extract
    | 0x9 => .ok (.tileLoad (idxField w).toNat)
    | 0xA => .ok (.tileStore (idxField w).toNat)
    | _   => .error .reservedOp

/-- The word of a command (30_encoding.md R90). -/
def encode : Instr → Word
  | .nop => 0x00000000#32
  | .encode => 0x00000001#32
  | .decode => 0x00000002#32
  | .fdct => 0x00000003#32
  | .idct => 0x00000004#32
  | .quant => 0x00000005#32
  | .dequant => 0x00000006#32
  | .embed b => 0x00000007#32 ||| ((BitVec.ofBool b).setWidth 32 <<< 4)
  | .extract => 0x00000008#32
  | .tileLoad idx => (BitVec.ofNat 32 idx <<< 8) ||| 0x09#32
  | .tileStore idx => (BitVec.ofNat 32 idx <<< 8) ||| 0x0A#32

/-- One row of the opcode map: a word selects the row when `(w & mask) = pattern` (30_encoding.md R87). -/
structure OpcodeRow where
  mnemonic : String
  pattern  : Word
  mask     : Word
  deriving DecidableEq, Repr

/-- The opcode map of 30_encoding.md R87, row by row. -/
def opcodeMap : List OpcodeRow :=
  [ ⟨"NOP",        0x00000000#32, 0xFFFFFFFF#32⟩,
    ⟨"ENCODE",     0x00000001#32, 0xFFFFFFFF#32⟩,
    ⟨"DECODE",     0x00000002#32, 0xFFFFFFFF#32⟩,
    ⟨"FDCT",       0x00000003#32, 0xFFFFFFFF#32⟩,
    ⟨"IDCT",       0x00000004#32, 0xFFFFFFFF#32⟩,
    ⟨"QUANT",      0x00000005#32, 0xFFFFFFFF#32⟩,
    ⟨"DEQUANT",    0x00000006#32, 0xFFFFFFFF#32⟩,
    ⟨"EMBED",      0x00000007#32, 0xFFFFFFEF#32⟩,
    ⟨"EXTRACT",    0x00000008#32, 0xFFFFFFFF#32⟩,
    ⟨"TILE_LOAD",  0x00000009#32, 0x000000FF#32⟩,
    ⟨"TILE_STORE", 0x0000000A#32, 0x000000FF#32⟩ ]

/-- `(w & mask) = pattern` (30_encoding.md R87). -/
def OpcodeRow.selects (r : OpcodeRow) (w : Word) : Bool := w &&& r.mask == r.pattern

/-- What the decoder reads from a table word of `nbits` bits. A command is always one 32-bit word, written whole to CMD
(30_encoding.md R85), so there is no byte order to lay out; bits above `nbits` are 0. -/
def decodeTableWord (nbits w : Nat) : Option Instr :=
  match decode (BitVec.ofNat 32 (w % 2 ^ nbits)) with
  | .ok i => some i
  | .error _ => none

end Sys2Proof
end

