-- ==== Sys2Proof/Config.lean ====
section
/-! DEFINITION. What an implementation fixes (00_scope.md section 4) and the free values
(93_implementation_defined.md). -/

namespace Sys2Proof

/-- The parameters of the engine (00_scope.md R9, R10, R11). They are carried in `State.params`, so that a statement
about every state is a statement about every choice of them; no step changes them (log 2). -/
structure Params where
  /-- IMG_BYTES, the size of the image memory (00_scope.md R9). -/
  imgBytes : Nat
  /-- MSG_BYTES, the size of the message memory (00_scope.md R10). -/
  msgBytes : Nat
  /-- QTAB_VALUES, the 64 divisors in row-major order (00_scope.md R11, 42_quantizer.md R122). -/
  qtab     : Vector Byte 64
  deriving DecidableEq, Repr

/-- The constraints of 00_scope.md R9, R10 and R11 on the parameters. -/
abbrev Params.valid (p : Params) : Prop :=
  (p.imgBytes % 4 = 0 ∧ 192 ≤ p.imgBytes ∧ p.imgBytes ≤ 2 ^ 24) ∧
  (p.msgBytes % 4 = 0 ∧ p.msgBytes ≤ 0x00FF0000 ∧ (p.imgBytes + 511) / 512 ≤ p.msgBytes) ∧
  ∀ k : Fin 64, p.qtab[k] ≠ 0#8

namespace Config

/-- The default QTAB_VALUES, ITU-T T.81 Table K.1 in row-major order (42_quantizer.md R122).
PRESUMED: the spec supplies it from general knowledge (93_implementation_defined.md G1, log 3). -/
def defaultQtab : Vector Byte 64 :=
  (#v[16, 11, 10, 16, 24, 40, 51, 61,
      12, 12, 14, 19, 26, 58, 60, 55] : Vector Byte 16) ++
  (#v[14, 13, 16, 24, 40, 57, 69, 56,
      14, 17, 22, 29, 51, 87, 80, 62] : Vector Byte 16) ++
  (#v[18, 22, 37, 56, 68, 109, 103, 77,
      24, 35, 55, 64, 81, 104, 113, 92] : Vector Byte 16) ++
  (#v[49, 64, 78, 87, 103, 121, 120, 101,
      72, 92, 95, 98, 112, 100, 103, 99] : Vector Byte 16)

/-- The spec's default parameters: IMG_BYTES 3145728 (R9), MSG_BYTES 8192 (R10), QTAB_VALUES Table K.1 (R11). -/
def defaults : Params := { imgBytes := 3145728, msgBytes := 8192, qtab := defaultQtab }

/-- ENGINE_BASE, the host-bus address of offset 0, left to the platform (00_scope.md R12, U8).
No rule of the engine depends on it: it decodes only the offset (log 18). -/
opaque engineBase : Nat

/-- The n-th byte of "any value in 0..255" that the model draws: the bytes an abandoned command could have written
(70_reset_and_hazards.md R179, U2, log 11). Nothing can be proved about its value. -/
opaque abandonedByte : Nat → Byte

end Config

end Sys2Proof
end

