-- ==== Sys2Proof/Machine/State.lean ====
section
/-! DEFINITION. The state of the engine and its environment (10_state.md, 70_reset_and_hazards.md R175, R176), as plain data. -/

namespace Sys2Proof.Machine

/-- The hidden phase (10_state.md R51). -/
inductive Phase where
  /-- No command runs: the engine waits for a CMD write. -/
  | idle
  /-- A command has been accepted and not yet checked. -/
  | check
  /-- An ENCODE or DECODE between entries. -/
  | loop
  deriving DecidableEq, Repr

/-- The error codes 0 to 6 (60_exceptions.md R158); codes 7 to 15 are never produced (U12). -/
inductive ErrorCode where
  | noError
  | imageTooSmall
  | capacityExceeded
  | truncatedPayload
  | illegalCommand
  | imageTooLarge
  | indexOutOfRange
  deriving DecidableEq, Repr

/-- The fields of STATUS that are stored (10_state.md R28). BUSY is the phase (R51); the reserved bits are stuck at 0. -/
structure Status where
  err     : Bool
  errCode : ErrorCode
  lastBit : Bool
  sat     : Bool
  ovr     : Bool
  deriving DecidableEq, Repr

/-- The three event bits that INT_STATUS records and INT_ENABLE enables (10_state.md R35, R36). -/
structure Events where
  done : Bool
  warn : Bool
  erri : Bool
  deriving DecidableEq, Repr

/-- One host transaction, as the bus ports carry it (10_state.md R21). -/
structure Transaction where
  addr  : Offset
  write : Bool
  /-- 0 = 1 byte, 1 = 2 bytes, 2 = 4 bytes, 3 = illegal. -/
  size  : BitVec 2
  wdata : Word
  deriving DecidableEq, Repr

/-- `bus_resp` (10_state.md R21). -/
inductive Resp where
  | okay
  | error
  deriving DecidableEq, Repr

/-- The engine's answer to one transaction: `bus_resp`, and `bus_rdata` for a read. The spec gives a write no read data (log 9). -/
inductive Response where
  | read (resp : Resp) (rdata : Word)
  | write (resp : Resp)
  deriving DecidableEq, Repr

/-- A host statement that stands for itself (30_encoding.md R90, R91). The others expand to lists of these (Machine/Bus.lean). -/
inductive HostStmt where
  /-- W32, W16, W8, R32, R16, R8 and CMD (R90). -/
  | access (t : Transaction)
  /-- POLL: repeat `R32 0x004` until bit 0 reads 0 (R91). -/
  | poll
  /-- CHECKOK: `R32 0x004` and require bits [7:1] = 0 (R91). -/
  | checkOk
  deriving DecidableEq, Repr

/-- Who moves in one step of the interleaving (20_memory.md R75; 70_reset_and_hazards.md R178, R193). -/
inductive Turn where
  /-- The engine takes its next step. -/
  | engine
  /-- The host performs its next access. -/
  | host
  /-- The platform drives `rst_n` to 0. -/
  | resetLow
  /-- The platform drives `rst_n` to 1. -/
  | resetHigh
  deriving DecidableEq, Repr

/-- The two byte memories (10_state.md R55). -/
inductive MemName where
  | img
  | msg
  deriving DecidableEq, Repr

/-- A byte memory: the bytes written since power-on, as (address, byte) pairs with strictly rising addresses.
An address that is not listed holds no value (20_memory.md R84; log 1). -/
abbrev Memory := List Host.Cell

/-- Why the machine stops with a fault. -/
inductive Fault where
  /-- A command or a host read reads a byte of IMG or MSG that nothing has written since power-on (20_memory.md R84, U1: the
  spec's own treatment is a fault). Raised by TILE_LOAD, ENCODE, DECODE and by host reads. Safe: the model stops. -/
  | unwrittenByte (mem : MemName) (addr : Nat)
  /-- The host's CHECKOK does not find what it requires (30_encoding.md R91). Raised by the host statement only. Safe: the
  model stops where the host's program is not what its author required (log 16). -/
  | checkFailed
  deriving DecidableEq, Repr

/-- Why an instruction has no meaning. -/
inductive Refusal where
  /-- Raised by an arm of `exec` whose instruction has no meaning yet. Safe: the model stops. -/
  | notModelled (mnemonic : String)
  deriving DecidableEq, Repr

/-- The whole state: the engine's registers, buffers, hidden state and memories, the level of its reset input, its last bus
response, its parameters, and the model's own fields for the host, the interleaving and the free values. -/
structure State where
  /-- IMG_BYTES, MSG_BYTES and QTAB_VALUES (00_scope.md R9 to R11). -/
  params       : Params
  /-- STATUS (10_state.md R28). -/
  status       : Status
  /-- INT_STATUS (10_state.md R35). -/
  intStatus    : Events
  /-- INT_ENABLE (10_state.md R36). -/
  intEnable    : Events
  /-- WIDTH (10_state.md R38). -/
  width        : BitVec 16
  /-- HEIGHT (10_state.md R39). -/
  height       : BitVec 16
  /-- ENC_LEN (10_state.md R40). -/
  encLen       : Word
  /-- DEC_BITS (10_state.md R41). -/
  decBits      : Word
  /-- PROGRESS (10_state.md R44). -/
  progress     : Word
  /-- CLAMP_CNT (10_state.md R45). -/
  clampCnt     : Word
  /-- BLK (10_state.md R47). -/
  blk          : Block
  /-- COEF (10_state.md R48). -/
  coef         : Block
  /-- QBLK (10_state.md R49). -/
  qblk         : Block
  /-- The hidden phase (10_state.md R51). -/
  phase        : Phase
  /-- The latched command (10_state.md R52). -/
  latched      : Word
  /-- The entry count of the running ENCODE or DECODE (10_state.md R53). -/
  n            : Nat
  /-- The next entry index (10_state.md R53). -/
  i            : Nat
  /-- DECODE's accumulator (10_state.md R53). -/
  acc          : Byte
  /-- `warn_pending` (10_state.md R53). -/
  warnPending  : Bool
  /-- IMG, keyed by the index `a` of `IMG[a]` (20_memory.md R62). -/
  img          : Memory
  /-- MSG, keyed by the index `j` of `MSG[j]` (20_memory.md R63). -/
  msg          : Memory
  /-- The level of the input `rst_n` (70_reset_and_hazards.md R178). -/
  rstN         : Bool
  /-- The answer to the last transaction, none before the first (10_state.md R21; log 9). -/
  lastResponse : Option Response
  /-- The model's own: the host's statements still to run, next first (log 5). -/
  host         : List HostStmt
  /-- The model's own: the turns fixed in advance, next first (log 5, log 6). -/
  schedule     : List Turn
  /-- The model's own: how many free bytes have been drawn (log 12). -/
  freeCount    : Nat
  deriving DecidableEq, Repr

/-- STATUS after reset (70_reset_and_hazards.md R175). -/
def Status.reset : Status :=
  { err := false, errCode := .noError, lastBit := false, sat := false, ovr := false }

/-- INT_STATUS and INT_ENABLE after reset (70_reset_and_hazards.md R175). -/
def Events.reset : Events := { done := false, warn := false, erri := false }

/-- A block buffer after reset: 0 in every word (70_reset_and_hazards.md R175). -/
def Block.reset : Block := Vector.ofFn fun _ => 0#32

/-- The machine right after power-on and reset: the registers at the values of 70_reset_and_hazards.md R175, phase IDLE
(R176), no byte of IMG or MSG written (R181), `rst_n` released. DESIGN CHOICE: the hidden state that R176 gives no value is 0
(log 4), no transaction has been answered (log 9), nothing is scheduled (log 5), no free byte is drawn (log 12); the parameters
are the spec's defaults (log 2, log 3). -/
def State.reset : State where
  params       := Config.defaults
  status       := Status.reset
  intStatus    := Events.reset
  intEnable    := Events.reset
  width        := 0#16
  height       := 0#16
  encLen       := 0#32
  decBits      := 0#32
  progress     := 0#32
  clampCnt     := 0#32
  blk          := Block.reset
  coef         := Block.reset
  qblk         := Block.reset
  phase        := .idle
  latched      := 0#32
  n            := 0
  i            := 0
  acc          := 0#8
  warnPending  := false
  img          := []
  msg          := []
  rstN         := true
  lastResponse := none
  host         := []
  schedule     := []
  freeCount    := 0

end Sys2Proof.Machine
end

