-- ==== Sys2Proof/Machine/Ops.lean ====
section
/-! DEFINITION. The shared operations: the integer primitives of 00_scope.md R15, the byte memories, the block buffers, and how
a command is accepted and how it ends (40_command.md R93 to R95). -/

namespace Sys2Proof.Machine

/-! ### Integer primitives (00_scope.md R15) -/

/-- `rnd(z, n) = floor((z + 2^(n-1)) / 2^n)`, round half up, `n ≥ 1`. -/
def rnd (z : Int) (n : Nat) : Int := (z + (2 ^ (n - 1) : Nat)) / (2 ^ n : Nat)

/-- `rha(a, b) = sign(a) * floor((2*|a| + b) / (2*b))`, nearest integer, ties away from zero, `b > 0`. -/
def rha (a : Int) (b : Nat) : Int := a.sign * ((2 * a.natAbs + b) / (2 * b) : Nat)

/-- `sat32(z) = min(max(z, -2^31), 2^31 - 1)`. -/
def sat32 (z : Int) : Int := min (max z (-2147483648)) 2147483647

/-- `mod2(z) = z - 2*floor(z / 2)`, 0 or 1, also for `z < 0`. -/
def mod2 (z : Int) : Int := z - 2 * (z / 2)

/-- `ceil8(n) = floor((n + 7) / 8)`. -/
def ceil8 (n : Nat) : Nat := (n + 7) / 8

/-- The 32-bit two's complement word of an integer in range (00_scope.md R14). -/
def wordOfInt (z : Int) : Word := BitVec.ofInt 32 z

/-- `sext_32(w)`, a word read as a signed integer (00_scope.md R14). -/
def sext32 (w : Word) : Int := w.toInt

/-! ### Block buffers (00_scope.md R16, R17) -/

/-- Index `row*8 + col` (00_scope.md R17). -/
def blockIndex (row col : Fin 8) : Fin 64 := ⟨row.val * 8 + col.val, by omega⟩

/-- The row of a block index (00_scope.md R17). -/
def rowOf (k : Fin 64) : Fin 8 := ⟨k.val / 8, by omega⟩

/-- The column of a block index (00_scope.md R17). -/
def colOf (k : Fin 64) : Fin 8 := ⟨k.val % 8, by omega⟩

/-- A sum over 0..7, as the passes of 41_transform.md R113 and R114 use it. -/
def sum8 (f : Fin 8 → Int) : Int := f 0 + f 1 + f 2 + f 3 + f 4 + f 5 + f 6 + f 7

/-- `sat32` of every value, as words (41_transform.md R113, R114; 42_quantizer.md R124). -/
@[irreducible] def saturateBlock (r : IntBlock) : Block := Vector.ofFn fun k : Fin 64 => wordOfInt (sat32 r[k])

/-- Whether `sat32` changes some value of the block (10_state.md R30). -/
@[irreducible] def clips (r : IntBlock) : Bool := (List.finRange 64).any fun k => r[k] != sat32 r[k]

/-! ### Byte memories (20_memory.md R62, R63, R67, R84) -/

/-- The canonical form: strictly rising addresses. An unlisted address holds no value, so no entry can equal it (log 1). -/
abbrev Memory.wf (m : Memory) : Prop := m.Pairwise fun x y => x.1 < y.1

/-- Every listed address exists in a memory of `size` bytes (20_memory.md R62, R63). -/
abbrev Memory.within (m : Memory) (size : Nat) : Prop := ∀ c ∈ m, c.1 < size

/-- The byte at an address; none if nothing has written it since power-on (20_memory.md R84). -/
def Memory.read : Memory → Nat → Option Byte
  | [], _ => none
  | (b, v) :: m, a => if a = b then some v else Memory.read m a

/-- Write one byte, keeping the canonical form (00_scope.md R16 MemWrite). -/
def Memory.write : Memory → Nat → Byte → Memory
  | [], a, v => [(a, v)]
  | (b, w) :: m, a, v =>
    if a < b then (a, v) :: (b, w) :: m
    else if a = b then (a, v) :: m
    else (b, w) :: Memory.write m a v

/-- Write a list of bytes at their addresses, in order. -/
def Memory.writeAll : Memory → List (Nat × Byte) → Memory
  | m, [] => m
  | m, (a, v) :: rest => Memory.writeAll (m.write a v) rest

/-- The first of some addresses that nothing has written. -/
def Memory.firstUnwritten (m : Memory) (addrs : List Nat) : Option Nat :=
  addrs.find? fun a => (m.read a).isNone

/-! ### The lifecycle of a command (40_command.md) -/

/-- STATUS.BUSY (10_state.md R28): 1 exactly when the phase is not IDLE (R51). -/
def State.busy (s : State) : Bool := s.phase != .idle

/-- Acceptance of the word `w`: the five assignments of 40_command.md R93. -/
def accept (w : Word) (s : State) : State :=
  { s with
    latched := w
    status := { s.status with err := false, errCode := .noError }
    warnPending := false
    phase := .check }

/-- `complete(e)` (40_command.md R95): the one way every command ends, with or without an error. -/
def complete (e : ErrorCode) (s : State) : State :=
  { s with
    phase := .idle
    status := if e = .noError then s.status else { s.status with err := true, errCode := e }
    intStatus :=
      { done := true
        warn := s.intStatus.warn || s.warnPending
        erri := s.intStatus.erri || e != .noError } }

/-- `raise Error(code)` (40_command.md R94): no other state is written by the command. -/
def raiseError (e : ErrorCode) (s : State) : State := complete e s

/-- `finish()` (40_command.md R94). -/
def finish (s : State) : State := complete .noError s

/-- The end of a step whose body may fault: a fault stops the machine, otherwise the step goes on with `k` (log 15). -/
def endWith (r : Except Fault State) (k : State → State) : Host.Outcome State Fault Refusal :=
  match r with
  | .ok s => .next (k s)
  | .error f => .fault f

end Sys2Proof.Machine
end

