-- ==== Sys2Proof/Machine/Flags.lean ====
section
/-! DEFINITION. The status and event bits: the words the host reads, the bits it clears, the bits the engine sets, and the
interrupt line (10_state.md R28 to R37). -/

namespace Sys2Proof.Machine

/-- The four bits of ERR_CODE (60_exceptions.md R158). -/
def ErrorCode.bits : ErrorCode → BitVec 4
  | .noError => 0#4
  | .imageTooSmall => 1#4
  | .capacityExceeded => 2#4
  | .truncatedPayload => 3#4
  | .illegalCommand => 4#4
  | .imageTooLarge => 5#4
  | .indexOutOfRange => 6#4

/-- STATUS as the host reads it, from bit 31 down (10_state.md R28); reserved bits read 0. -/
def statusWord (s : State) : Word :=
  0#14 ++ BitVec.ofBool s.status.ovr ++ BitVec.ofBool s.status.sat ++ 0#7 ++ BitVec.ofBool s.status.lastBit ++
    s.status.errCode.bits ++ 0#2 ++ BitVec.ofBool s.status.err ++ BitVec.ofBool s.busy

/-- INT_STATUS and INT_ENABLE as the host reads them, from bit 31 down (10_state.md R35, R36); reserved bits read 0. -/
def Events.word (e : Events) : Word :=
  0#29 ++ BitVec.ofBool e.erri ++ BitVec.ofBool e.warn ++ BitVec.ofBool e.done

/-- The three event bits of a written word (10_state.md R35, R36); reserved bits are ignored. -/
def Events.ofWord (w : Word) : Events :=
  { done := w.getLsbD 0, warn := w.getLsbD 1, erri := w.getLsbD 2 }

/-- Write-1-to-clear of the event bits (10_state.md R35). -/
def Events.clear (e : Events) (w : Word) : Events :=
  { done := e.done && !w.getLsbD 0, warn := e.warn && !w.getLsbD 1, erri := e.erri && !w.getLsbD 2 }

/-- Write-1-to-clear of STATUS.SAT (bit 16) and STATUS.OVR (bit 17); every other bit written is ignored (10_state.md R33). -/
def Status.clear (st : Status) (w : Word) : Status :=
  { st with sat := st.sat && !w.getLsbD 16, ovr := st.ovr && !w.getLsbD 17 }

/-- The interrupt line (10_state.md R37). -/
def State.irq (s : State) : Bool :=
  (s.intStatus.done && s.intEnable.done) || (s.intStatus.warn && s.intEnable.warn) || (s.intStatus.erri && s.intEnable.erri)

/-- `SAT_EVENT` if `c`: STATUS.SAT is set, never cleared by the engine (10_state.md R30). -/
def satEvent (c : Bool) (s : State) : State :=
  { s with status := { s.status with sat := s.status.sat || c } }

/-- `STATUS.LASTBIT <- b` (10_state.md R32). -/
def setLastBit (b : Bool) (s : State) : State :=
  { s with status := { s.status with lastBit := b } }

/-- `STATUS.OVR <- 1` (10_state.md R31). -/
def setOvr (s : State) : State :=
  { s with status := { s.status with ovr := true } }

/-- `CLAMP_CNT <- min(CLAMP_CNT + c, 2^32 - 1)` and `warn_pending <- 1`, if `c > 0` (43_tiler.md R130, R132). -/
def countClamps (c : Nat) (s : State) : State :=
  if c > 0 then
    { s with clampCnt := BitVec.ofNat 32 (min (s.clampCnt.toNat + c) 4294967295), warnPending := true }
  else s

end Sys2Proof.Machine
end

