-- ==== Sys2Proof/Machine/Operands.lean ====
section
/-! DEFINITION. The operands of the commands: the image geometry and the BlockQueue (43_tiler.md R126, R128), the samples
(R129, R131), the payload bits (44_bitstream.md R135), and the checks of the operands (60_exceptions.md R158, R159). -/

namespace Sys2Proof.Machine

/-- CAPACITY, computed from the current WIDTH and HEIGHT (10_state.md R42). -/
def State.capacity (s : State) : Nat := s.height.toNat / 8 * (s.width.toNat / 8) * 3

/-- `addr(i, k)`: the IMG byte of sample `k` of entry `i` in an image of width `W` (43_tiler.md R126, R128). -/
def sampleAddr (W i k : Nat) : Nat :=
  let TC := W / 8
  let ch := i % 3
  let tcol := i / 3 % TC
  let trow := i / (3 * TC)
  ((8 * trow + k / 8) * W + (8 * tcol + k % 8)) * 3 + ch

/-- The 64 IMG bytes of entry `i` (43_tiler.md R128), sample 0 first. -/
def entryAddrs (W i : Nat) : List Nat := (List.range 64).map (sampleAddr W i)

/-- A sample as a BLK word, `p * 2^16` (43_tiler.md R129, 41_transform.md R106). -/
def sampleWord (p : Byte) : Word := BitVec.ofNat 32 (p.toNat * 65536)

/-- `to_sample(v)` of a BLK word: the sample, and whether it was clamped (43_tiler.md R131). -/
def toSample (v : Word) : Byte × Bool :=
  let r := rha (sext32 v) (2 ^ 16)
  if r < 0 then (0#8, true)
  else if r > 255 then (255#8, true)
  else (BitVec.ofNat 8 r.toNat, false)

/-- Bit `7 - (i mod 8)` of a message byte: payload bit `i` when `byte` is `MSG[floor(i/8)]` (44_bitstream.md R135). -/
def payloadBitOf (byte : Byte) (i : Nat) : Bool := byte.toNat / 2 ^ (7 - i % 8) % 2 == 1

/-- Payload bit `i`, read from MSG (44_bitstream.md R135; 20_memory.md R65). -/
def payloadBit (m : Memory) (i : Nat) : Except Fault Bool :=
  match m.read (i / 8) with
  | some byte => .ok (payloadBitOf byte i)
  | none => .error (.unwrittenByte .msg (i / 8))

/-- `WIDTH*HEIGHT*3 > IMG_BYTES` (60_exceptions.md R158, code 5). -/
def State.tooLarge (s : State) : Bool := decide (s.width.toNat * s.height.toNat * 3 > s.params.imgBytes)

/-- `WIDTH < 8 or HEIGHT < 8` (60_exceptions.md R158, code 1). -/
def State.tooSmall (s : State) : Bool := decide (s.width.toNat < 8 ∨ s.height.toNat < 8)

/-- The checks of TILE_LOAD and TILE_STORE, in their order (43_tiler.md R129, R130; 60_exceptions.md R159). -/
def tileCheck (idx : Nat) (s : State) : ErrorCode :=
  if s.tooLarge then .imageTooLarge
  else if s.tooSmall then .imageTooSmall
  else if idx ≥ s.capacity then .indexOutOfRange
  else .noError

/-- The checks of ENCODE, in their order (45_codec.md R147). -/
def encodeCheck (s : State) : ErrorCode :=
  if s.tooLarge then .imageTooLarge
  else if 8 * s.encLen.toNat > s.capacity then .capacityExceeded
  else if s.tooSmall then .imageTooSmall
  else .noError

/-- The checks of DECODE, in their order (45_codec.md R152). -/
def decodeCheck (s : State) : ErrorCode :=
  if s.tooLarge then .imageTooLarge
  else if s.tooSmall then .imageTooSmall
  else if s.decBits.toNat > s.capacity then .truncatedPayload
  else .noError

end Sys2Proof.Machine
end

