-- ==== Sys2Proof/Machine/Bus.lean ====
section
/-! DEFINITION. The host's side: the address map, one host access, and the host's statements (20_memory.md, 10_state.md section 3,
30_encoding.md R90, R91). -/

namespace Sys2Proof.Machine

/-- The control and status registers (10_state.md R26). -/
inductive Csr where
  | id | status | cmd | intStatus | intEnable | width | height | encLen | decBits | capacity | progress | clampCnt | imgSize | msgSize
  deriving DecidableEq, Repr

/-- What an offset addresses (20_memory.md R57). -/
inductive Region where
  | csr (c : Csr)
  | blk (k : Fin 64)
  | coef (k : Fin 64)
  | qblk (k : Fin 64)
  | qtab (k : Fin 64)
  | msg (j : Nat)
  | img (a : Nat)
  | reserved
  deriving DecidableEq, Repr

/-- The register at a CSR word index, offset / 4 (10_state.md R26; R25 beyond 0x034). -/
def csrAt : Nat → Region
  | 0 => .csr .id
  | 1 => .csr .status
  | 2 => .csr .cmd
  | 3 => .csr .intStatus
  | 4 => .csr .intEnable
  | 5 => .csr .width
  | 6 => .csr .height
  | 7 => .csr .encLen
  | 8 => .csr .decBits
  | 9 => .csr .capacity
  | 10 => .csr .progress
  | 11 => .csr .clampCnt
  | 12 => .csr .imgSize
  | 13 => .csr .msgSize
  | _ => .reserved

/-- The address map (20_memory.md R57). -/
def regionOf (p : Params) (off : Nat) : Region :=
  if off < 0x1000 then csrAt (off / 4)
  else if h : 0x1000 ≤ off ∧ off < 0x1100 then .blk ⟨(off - 0x1000) / 4, by omega⟩
  else if h : 0x1100 ≤ off ∧ off < 0x1200 then .coef ⟨(off - 0x1100) / 4, by omega⟩
  else if h : 0x1200 ≤ off ∧ off < 0x1300 then .qblk ⟨(off - 0x1200) / 4, by omega⟩
  else if h : 0x1300 ≤ off ∧ off < 0x1400 then .qtab ⟨(off - 0x1300) / 4, by omega⟩
  else if 0x10000 ≤ off ∧ off < 0x10000 + p.msgBytes then .msg (off - 0x10000)
  else if 0x1000000 ≤ off ∧ off < 0x1000000 + p.imgBytes then .img (off - 0x1000000)
  else .reserved

/-- The number of bytes of a transaction: none for the illegal size 3 (10_state.md R21, 20_memory.md R58). -/
def Transaction.bytes (t : Transaction) : Option Nat :=
  if t.size = 0#2 then some 1 else if t.size = 1#2 then some 2 else if t.size = 2#2 then some 4 else none

/-- Size and alignment are legal for the region: word registers take 4-byte accesses, the byte memories 1, 2 and 4, each at a
multiple of its size (20_memory.md R58, R59; 10_state.md R24). -/
def legalShape (r : Region) (t : Transaction) : Bool :=
  match t.bytes with
  | none => false
  | some n =>
    t.addr.toNat % n == 0 &&
      match r with
      | .csr _ => n == 4
      | .blk _ => n == 4
      | .coef _ => n == 4
      | .qblk _ => n == 4
      | .qtab _ => n == 4
      | .msg _ => true
      | .img _ => true
      | .reserved => false

/-- What a legal read of a register returns; reads have no side effect (10_state.md R26, 20_memory.md R68). -/
def csrRead (c : Csr) (s : State) : Word :=
  match c with
  | .id => 0x44435438#32
  | .status => statusWord s
  | .cmd => 0#32
  | .intStatus => s.intStatus.word
  | .intEnable => s.intEnable.word
  | .width => s.width.setWidth 32
  | .height => s.height.setWidth 32
  | .encLen => s.encLen
  | .decBits => s.decBits
  | .capacity => BitVec.ofNat 32 s.capacity
  | .progress => s.progress
  | .clampCnt => s.clampCnt
  | .imgSize => BitVec.ofNat 32 s.params.imgBytes
  | .msgSize => BitVec.ofNat 32 s.params.msgBytes

/-- A write that is refused while BUSY and performed otherwise (20_memory.md R66). -/
def whileIdle (s : State) (s' : State) : State × Resp :=
  if s.busy then (s, .error) else (s', .okay)

/-- A legal write of a register (10_state.md R24, R31, R33 to R46; 20_memory.md R66). -/
def csrWrite (c : Csr) (v : Word) (s : State) : State × Resp :=
  match c with
  | .id => (s, .error)
  | .status => ({ s with status := s.status.clear v }, .okay)
  | .cmd => if s.busy then (setOvr s, .error) else (accept v s, .okay)
  | .intStatus => ({ s with intStatus := s.intStatus.clear v }, .okay)
  | .intEnable => ({ s with intEnable := Events.ofWord v }, .okay)
  | .width => whileIdle s { s with width := v.setWidth 16 }
  | .height => whileIdle s { s with height := v.setWidth 16 }
  | .encLen => whileIdle s { s with encLen := v }
  | .decBits => whileIdle s { s with decBits := v }
  | .capacity => (s, .error)
  | .progress => (s, .error)
  | .clampCnt => whileIdle s { s with clampCnt := v }
  | .imgSize => (s, .error)
  | .msgSize => (s, .error)

/-- The `n` addresses of an access, lowest first. -/
def accessAddrs (a n : Nat) : List Nat := (List.range n).map (a + ·)

/-- The little-endian word of the bytes at `addrs`, the first in bits 7:0, high bits 0 (20_memory.md R60). -/
def wordOfBytes (m : Memory) : List Nat → Nat
  | [] => 0
  | a :: rest => ((m.read a).getD 0#8).toNat + 256 * wordOfBytes m rest

/-- A host read of `n` bytes of a memory; a byte that nothing has written is a fault (20_memory.md R60, R84). -/
def memoryRead (name : MemName) (m : Memory) (a n : Nat) : Except Fault Word :=
  match m.firstUnwritten (accessAddrs a n) with
  | some b => .error (.unwrittenByte name b)
  | none => .ok (BitVec.ofNat 32 (wordOfBytes m (accessAddrs a n)))

/-- The bytes a write of `n` bytes stores, with their addresses, little-endian (20_memory.md R60). -/
def bytesOfWord (a n : Nat) (v : Word) : List (Nat × Byte) :=
  (List.range n).map fun j => (a + j, v.extractLsb' (8 * j) 8)

/-- A host read: the response and the read data; a refused read returns 0 (20_memory.md R57 to R61, R66, R84). -/
def busRead (t : Transaction) (s : State) : Except Fault (Resp × Word) :=
  let r := regionOf s.params t.addr.toNat
  if legalShape r t then
    match r with
    | .csr c => .ok (.okay, csrRead c s)
    | .qtab k => .ok (.okay, (s.params.qtab[k]).setWidth 32)
    | .blk k => .ok (if s.busy then (.error, 0#32) else (.okay, s.blk[k]))
    | .coef k => .ok (if s.busy then (.error, 0#32) else (.okay, s.coef[k]))
    | .qblk k => .ok (if s.busy then (.error, 0#32) else (.okay, s.qblk[k]))
    | .msg j =>
      if s.busy then .ok (.error, 0#32)
      else match memoryRead .msg s.msg j (t.bytes.getD 0) with
        | .ok w => .ok (.okay, w)
        | .error f => .error f
    | .img a =>
      if s.busy then .ok (.error, 0#32)
      else match memoryRead .img s.img a (t.bytes.getD 0) with
        | .ok w => .ok (.okay, w)
        | .error f => .error f
    | .reserved => .ok (.error, 0#32)
  else .ok (.error, 0#32)

/-- A host write: the state after it and the response; a refused write changes nothing but OVR (20_memory.md R57 to R61, R66). -/
def busWrite (t : Transaction) (s : State) : State × Resp :=
  let r := regionOf s.params t.addr.toNat
  if legalShape r t then
    match r with
    | .csr c => csrWrite c t.wdata s
    | .qtab _ => (s, .error)
    | .blk k => whileIdle s { s with blk := s.blk.set k t.wdata }
    | .coef k => whileIdle s { s with coef := s.coef.set k t.wdata }
    | .qblk k => whileIdle s { s with qblk := s.qblk.set k t.wdata }
    | .msg j => whileIdle s { s with msg := s.msg.writeAll (bytesOfWord j (t.bytes.getD 0) t.wdata) }
    | .img a => whileIdle s { s with img := s.img.writeAll (bytesOfWord a (t.bytes.getD 0) t.wdata) }
    | .reserved => (s, .error)
  else (s, .error)

/-- One host access, atomic (20_memory.md R69), with its answer left on the bus ports. -/
def hostAccess (t : Transaction) (s : State) : Host.Outcome State Fault Refusal :=
  if t.write then
    let (s', r) := busWrite t s
    .next { s' with lastResponse := some (.write r) }
  else
    match busRead t s with
    | .ok (r, d) => .next { s with lastResponse := some (.read r d) }
    | .error f => .fault f

/-! ### The statements of a host program (30_encoding.md R90, R91) -/

/-- `W32 off, v`. -/
def HostStmt.w32 (off : Offset) (v : Word) : HostStmt := .access { addr := off, write := true, size := 2#2, wdata := v }
/-- `W16 off, v`. -/
def HostStmt.w16 (off : Offset) (v : Word) : HostStmt := .access { addr := off, write := true, size := 1#2, wdata := v }
/-- `W8 off, v`. -/
def HostStmt.w8 (off : Offset) (v : Word) : HostStmt := .access { addr := off, write := true, size := 0#2, wdata := v }
/-- `R32 off`. -/
def HostStmt.r32 (off : Offset) : HostStmt := .access { addr := off, write := false, size := 2#2, wdata := 0#32 }
/-- `R16 off`. -/
def HostStmt.r16 (off : Offset) : HostStmt := .access { addr := off, write := false, size := 1#2, wdata := 0#32 }
/-- `R8 off`. -/
def HostStmt.r8 (off : Offset) : HostStmt := .access { addr := off, write := false, size := 0#2, wdata := 0#32 }
/-- `CMD w`: `W32 0x008, w` (30_encoding.md R90). -/
def HostStmt.cmd (w : Word) : HostStmt := .w32 0x008#25 w
/-- `RUN w`: `CMD w` then `POLL`. -/
def HostStmt.run (w : Word) : List HostStmt := [.cmd w, .poll]
/-- `ACK`: clear all INT_STATUS bits. -/
def HostStmt.ack : List HostStmt := [.w32 0x00C#25 0x7#32]
/-- `FILL off, n, v`: `W8 off+j, v` for j = 0..n-1 (30_encoding.md R91). DESIGN CHOICE: the spec gives no range for off+j; here it
wraps in 25 bits, so a FILL that passes 0x1FFFFFF goes on at offset 0 (log 25). -/
def HostStmt.fill (off : Offset) (n : Nat) (v : Byte) : List HostStmt :=
  (List.range n).map fun j => .w8 (off + BitVec.ofNat 25 j) (v.setWidth 32)

/-- The read of STATUS that POLL and CHECKOK make (30_encoding.md R91). -/
def readStatus : Transaction := { addr := 0x004#25, write := false, size := 2#2, wdata := 0#32 }

/-- The host takes one step: its next statement makes one access. POLL stays until the STATUS it reads shows BUSY = 0. CHECKOK
stops the run if bits [7:1] of the STATUS it reads are not 0 (30_encoding.md R91; log 16). With no statement left the host does
nothing. -/
def hostStep (s : State) : Host.Outcome State Fault Refusal :=
  match s.host with
  | [] => .next s
  | .access t :: rest => hostAccess t { s with host := rest }
  | .poll :: rest => hostAccess readStatus { s with host := if (statusWord s).getLsbD 0 then s.host else rest }
  | .checkOk :: rest =>
    if (statusWord s).extractLsb' 1 7 = 0#7 then hostAccess readStatus { s with host := rest }
    else .fault .checkFailed

/-- The host-bus address of an offset (00_scope.md R12, 30_encoding.md R90; log 18). -/
def hostAddress (off : Offset) : Nat := Config.engineBase + off.toNat

/-- The offset the platform's decoding gives the engine for a host-bus address in its space (20_memory.md R56; log 18). -/
def offsetOf (addr : Nat) : Option Offset :=
  if Config.engineBase ≤ addr ∧ addr < Config.engineBase + 2 ^ 25 then some (BitVec.ofNat 25 (addr - Config.engineBase))
  else none

end Sys2Proof.Machine
end

