-- ==== Sys2Proof/Machine/Bitstream.lean ====
section
/-! DEFINITION. The embedding rule: EMBED and EXTRACT (44_bitstream.md). -/

namespace Sys2Proof.Machine

/-- A payload bit as an integer, 0 or 1 (44_bitstream.md R135). -/
def bitInt (b : Bool) : Int := if b then 1 else 0

/-- `embed(q, b) = q - mod2(q) + b` (44_bitstream.md R139). -/
def embedBit (q : Word) (b : Bool) : Word := wordOfInt (sext32 q - mod2 (sext32 q) + bitInt b)

/-- `extract(q) = mod2(q)` (44_bitstream.md R140). -/
def extractBit (q : Word) : Bool := mod2 (sext32 q) == 1

/-- The body of EMBED: only QBLK[0] changes (44_bitstream.md R141). -/
def embedBody (b : Bool) (s : State) : State :=
  { s with qblk := s.qblk.set 0 (embedBit s.qblk[0] b) }

/-- The body of EXTRACT: LASTBIT from QBLK[0] (44_bitstream.md R142). -/
def extractBody (s : State) : State := setLastBit (extractBit s.qblk[0]) s

/-- EMBED b (44_bitstream.md R141). -/
def execEmbed (b : Bool) (s : State) : Host.Outcome State Fault Refusal := .next (finish (embedBody b s))

/-- EXTRACT (44_bitstream.md R142). -/
def execExtract (s : State) : Host.Outcome State Fault Refusal := .next (finish (extractBody s))

end Sys2Proof.Machine
end

