-- ==== Sys2Proof/Machine/Quantizer.lean ====
section
/-! DEFINITION. The Quantizer: QUANT and DEQUANT (42_quantizer.md). -/

namespace Sys2Proof.Machine

/-- `QTAB[k]` (42_quantizer.md R122). -/
def divisor (p : Params) (k : Fin 64) : Nat := p.qtab[k].toNat

/-- QUANT's values: `rha(COEF[i], QTAB[i] * 2^16)` (42_quantizer.md R123). -/
@[irreducible] def quantize (p : Params) (coef : Block) : Block :=
  Vector.ofFn fun k : Fin 64 => wordOfInt (rha (sext32 coef[k]) (divisor p k * 2 ^ 16))

/-- DEQUANT's products `QBLK[i] * QTAB[i] * 2^16`, before `sat32` (42_quantizer.md R124). -/
@[irreducible] def dequantExact (p : Params) (qblk : Block) : IntBlock :=
  Vector.ofFn fun k : Fin 64 => sext32 qblk[k] * (divisor p k * 2 ^ 16 : Nat)

/-- The body of QUANT (42_quantizer.md R123). -/
def quantBody (s : State) : State := { s with qblk := quantize s.params s.coef }

/-- The body of DEQUANT: COEF and STATUS.SAT (42_quantizer.md R124). -/
def dequantBody (s : State) : State :=
  let z := dequantExact s.params s.qblk
  satEvent (clips z) { s with coef := saturateBlock z }

/-- QUANT (42_quantizer.md R123). -/
def execQuant (s : State) : Host.Outcome State Fault Refusal := .next (finish (quantBody s))

/-- DEQUANT (42_quantizer.md R124). -/
def execDequant (s : State) : Host.Outcome State Fault Refusal := .next (finish (dequantBody s))

end Sys2Proof.Machine
end

