-- ==== Sys2Proof/Machine/Tiler.lean ====
section
/-! DEFINITION. The Tiler and the reassembly: TILE_LOAD and TILE_STORE (43_tiler.md). -/

namespace Sys2Proof.Machine

/-- The 64 samples of entry `idx` as BLK words, sample 0 first (43_tiler.md R129). Where it is used every byte is written: the
`getD` of an unwritten byte is never reached (`tileLoadBody` faults first). -/
@[irreducible] def loadedBlock (m : Memory) (W idx : Nat) : Block :=
  Vector.ofFn fun k : Fin 64 => sampleWord ((m.read (sampleAddr W idx k.val)).getD 0#8)

/-- The body of TILE_LOAD: BLK from the 64 IMG bytes of entry `idx` (43_tiler.md R129). A byte that nothing has written is a
fault (20_memory.md R84); the byte named is the first in sample order. -/
def tileLoadBody (idx : Nat) (s : State) : Except Fault State :=
  match s.img.firstUnwritten (entryAddrs s.width.toNat idx) with
  | some a => .error (.unwrittenByte .img a)
  | none => .ok { s with blk := loadedBlock s.img s.width.toNat idx }

/-- The 64 bytes TILE_STORE writes, with their addresses, sample 0 first (43_tiler.md R130, R131). -/
@[irreducible] def storedSamples (W idx : Nat) (blk : Block) : List (Nat × Byte) :=
  (List.finRange 64).map fun k => (sampleAddr W idx k.val, (toSample blk[k]).1)

/-- How many of the 64 words are clamped, `c` of 43_tiler.md R130. -/
@[irreducible] def clampsOf (blk : Block) : Nat := (List.finRange 64).countP fun k => (toSample blk[k]).2

/-- The body of TILE_STORE: IMG, and CLAMP_CNT and `warn_pending` if a sample is clamped (43_tiler.md R130, R132). -/
def tileStoreBody (idx : Nat) (s : State) : State :=
  countClamps (clampsOf s.blk) { s with img := s.img.writeAll (storedSamples s.width.toNat idx s.blk) }

/-- TILE_LOAD idx (43_tiler.md R129). -/
def execTileLoad (idx : Nat) (s : State) : Host.Outcome State Fault Refusal :=
  if tileCheck idx s = .noError then endWith (tileLoadBody idx s) finish
  else .next (raiseError (tileCheck idx s) s)

/-- TILE_STORE idx (43_tiler.md R130). -/
def execTileStore (idx : Nat) (s : State) : Host.Outcome State Fault Refusal :=
  if tileCheck idx s = .noError then .next (finish (tileStoreBody idx s))
  else .next (raiseError (tileCheck idx s) s)

end Sys2Proof.Machine
end

