-- ==== Sys2Proof/Machine/Transform.lean ====
section
/-! DEFINITION. The Transform: FDCT and IDCT (41_transform.md). The accuracy of the pair (R115, R116) is a consequence of this
fixed-point datapath, of `fdctExact` and `idctExact` with one `saturateBlock` each, and of nothing else. -/

namespace Sys2Proof.Machine

/-- The cosine table `Kc[u][x]`, 2^30 times the cosine (41_transform.md R109, R110). -/
def kcTable : Vector (Vector Int 8) 8 :=
  #v[#v[1073741824, 1073741824, 1073741824, 1073741824, 1073741824, 1073741824, 1073741824, 1073741824],
     #v[1053110176, 892783698, 596538995, 209476638, -209476638, -596538995, -892783698, -1053110176],
     #v[992008094, 410903207, -410903207, -992008094, -992008094, -410903207, 410903207, 992008094],
     #v[892783698, -209476638, -1053110176, -596538995, 596538995, 1053110176, 209476638, -892783698],
     #v[759250125, -759250125, -759250125, 759250125, 759250125, -759250125, -759250125, 759250125],
     #v[596538995, -1053110176, 209476638, 892783698, -892783698, -209476638, 1053110176, -596538995],
     #v[410903207, -992008094, 992008094, -410903207, -410903207, 992008094, -992008094, 410903207],
     #v[209476638, -596538995, 892783698, -1053110176, 1053110176, -892783698, 596538995, -209476638]]

/-- `Kc[u][x]` (41_transform.md R110). -/
def Kc (u x : Fin 8) : Int := kcTable[u][x]

/-- `Sc[u][v]`, 2^30 times `0.25 * C(u) * C(v)` (41_transform.md R109, R110). -/
def Sc (u v : Fin 8) : Int :=
  if u = 0 ∧ v = 0 then 134217728
  else if u = 0 ∨ v = 0 then 189812531
  else 268435456

/-- FDCT pass 1, along x: `A[u][y]` at index `u*8 + y` (41_transform.md R113). -/
def fdctPass1 (blk : Block) : IntBlock :=
  Vector.ofFn fun k : Fin 64 =>
    rnd (sum8 fun x => Kc (rowOf k) x * sext32 blk[blockIndex x (colOf k)]) 30

/-- FDCT pass 2, along y, and the scale: the values `r` before `sat32`, at index `u*8 + v` (41_transform.md R113). -/
@[irreducible] def fdctExact (blk : Block) : IntBlock :=
  let a := fdctPass1 blk
  Vector.ofFn fun k : Fin 64 =>
    rnd (Sc (rowOf k) (colOf k) * sum8 fun y => Kc (colOf k) y * a[blockIndex (rowOf k) y]) 60

/-- IDCT scale and pass 1, along u: `B[x][v]` at index `x*8 + v` (41_transform.md R114). -/
def idctPass1 (coef : Block) : IntBlock :=
  Vector.ofFn fun k : Fin 64 =>
    rnd (sum8 fun u => Kc u (rowOf k) * Sc u (colOf k) * sext32 coef[blockIndex u (colOf k)]) 60

/-- IDCT pass 2, along v: the values `r` before `sat32`, at index `x*8 + y` (41_transform.md R114). -/
@[irreducible] def idctExact (coef : Block) : IntBlock :=
  let b := idctPass1 coef
  Vector.ofFn fun k : Fin 64 =>
    rnd (sum8 fun v => Kc v (colOf k) * b[blockIndex (rowOf k) v]) 30

/-- The body of FDCT: COEF and STATUS.SAT (41_transform.md R113). -/
def fdctBody (s : State) : State :=
  let r := fdctExact s.blk
  satEvent (clips r) { s with coef := saturateBlock r }

/-- The body of IDCT: BLK and STATUS.SAT (41_transform.md R114). -/
def idctBody (s : State) : State :=
  let r := idctExact s.coef
  satEvent (clips r) { s with blk := saturateBlock r }

/-- FDCT (41_transform.md R113). -/
def execFdct (s : State) : Host.Outcome State Fault Refusal := .next (finish (fdctBody s))

/-- IDCT (41_transform.md R114). -/
def execIdct (s : State) : Host.Outcome State Fault Refusal := .next (finish (idctBody s))

end Sys2Proof.Machine
end

