-- ==== Sys2Proof/Machine/Codec.lean ====
section
/-! DEFINITION. The Codec: ENCODE and DECODE (45_codec.md). -/

namespace Sys2Proof.Machine

/-- The initialisation that ENCODE and DECODE share: PROGRESS and i are 0, n is the entry count, and the loop starts unless n is
0 (45_codec.md R148, R154). -/
def startLoop (n : Nat) (s : State) : State :=
  let s := { s with progress := 0#32, n := n, i := 0 }
  if n = 0 then finish s else { s with phase := .loop }

/-- `i <- i + 1 ; PROGRESS <- i ; if i = n: finish()` (45_codec.md R149, R155). -/
def advance (s : State) : State :=
  let s := { s with i := s.i + 1, progress := BitVec.ofNat 32 (s.i + 1) }
  if s.i = s.n then finish s else s

/-- ENCODE's CHECK step: the checks, then the initialisation (45_codec.md R147, R148). -/
def encodeStart (s : State) : Host.Outcome State Fault Refusal :=
  if encodeCheck s = .noError then .next (startLoop (8 * s.encLen.toNat) { s with clampCnt := 0#32 })
  else .next (raiseError (encodeCheck s) s)

/-- The bodies ENCODE runs on entry `i` once the payload bit and the block are read (45_codec.md R149). -/
def encodeBlock (b : Bool) (i : Nat) (s : State) : State :=
  tileStoreBody i (idctBody (dequantBody (embedBody b (quantBody (fdctBody s)))))

/-- ENCODE's body for the entry `i` of the state (45_codec.md R149). -/
def encodeEntry (s : State) : Except Fault State :=
  match payloadBit s.msg s.i with
  | .error f => .error f
  | .ok b =>
    match tileLoadBody s.i s with
    | .error f => .error f
    | .ok s' => .ok (encodeBlock b s.i s')

/-- DECODE's CHECK step: the checks, then the initialisation (45_codec.md R152, R154). -/
def decodeStart (s : State) : Host.Outcome State Fault Refusal :=
  if decodeCheck s = .noError then .next (startLoop s.decBits.toNat { s with acc := 0#8 })
  else .next (raiseError (decodeCheck s) s)

/-- `acc + b * 2^(7 - i mod 8)` (45_codec.md R155, 44_bitstream.md R136). -/
def accumulate (acc : Byte) (b : Bool) (i : Nat) : Byte :=
  acc + BitVec.ofNat 8 ((if b then 1 else 0) * 2 ^ (7 - i % 8))

/-- What DECODE does with the bit `b` of entry `i`: LASTBIT, the accumulator, and the message byte when it is complete or the
bit is the last (45_codec.md R155). -/
def receiveBit (b : Bool) (s : State) : State :=
  let s := setLastBit b s
  let acc := accumulate s.acc b s.i
  if s.i % 8 = 7 ∨ s.i + 1 = s.n then { s with msg := s.msg.write (s.i / 8) acc, acc := 0#8 }
  else { s with acc := acc }

/-- DECODE's body for the entry `i` of the state (45_codec.md R155). -/
def decodeEntry (s : State) : Except Fault State :=
  match tileLoadBody s.i s with
  | .error f => .error f
  | .ok s' =>
    let s'' := quantBody (fdctBody s')
    .ok (receiveBit (extractBit s''.qblk[0]) s'')

/-- ENCODE: one engine step, the CHECK step or the step of the next entry (45_codec.md R149, 40_command.md R96). -/
def execEncode (s : State) : Host.Outcome State Fault Refusal :=
  match s.phase with
  | .loop => endWith (encodeEntry s) advance
  | .check => encodeStart s
  | .idle => encodeStart s

/-- DECODE: one engine step, the CHECK step or the step of the next entry (45_codec.md R155, 40_command.md R96). -/
def execDecode (s : State) : Host.Outcome State Fault Refusal :=
  match s.phase with
  | .loop => endWith (decodeEntry s) advance
  | .check => decodeStart s
  | .idle => decodeStart s

end Sys2Proof.Machine
end

