-- ==== Sys2Proof/Machine/Command.lean ====
section
/-! DEFINITION. NOP (40_command.md). -/

namespace Sys2Proof.Machine

/-- NOP (40_command.md R97). -/
def execNop (s : State) : Host.Outcome State Fault Refusal := .next (finish s)

end Sys2Proof.Machine
end

