-- ==== Sys2Proof/Machine/Dispatch.lean ====
section
/-! DEFINITION. One arm per command: one engine step of the command (40_command.md R96). -/

namespace Sys2Proof.Machine

/-- One engine step of a command: its CHECK step, or for ENCODE and DECODE in phase LOOP the step of the next entry (40_command.md R96). -/
def exec (i : Instr) (s : State) : Host.Outcome State Fault Refusal :=
  match i with
  | .nop => Sys2Proof.Machine.execNop s
  | .encode => Sys2Proof.Machine.execEncode s
  | .decode => Sys2Proof.Machine.execDecode s
  | .fdct => Sys2Proof.Machine.execFdct s
  | .idct => Sys2Proof.Machine.execIdct s
  | .quant => Sys2Proof.Machine.execQuant s
  | .dequant => Sys2Proof.Machine.execDequant s
  | .embed b => Sys2Proof.Machine.execEmbed b s
  | .extract => Sys2Proof.Machine.execExtract s
  | .tileLoad idx => Sys2Proof.Machine.execTileLoad idx s
  | .tileStore idx => Sys2Proof.Machine.execTileStore idx s

end Sys2Proof.Machine
end

