-- ==== Sys2Proof/Machine/Reset.lean ====
section
/-! DEFINITION. The reset input `rst_n` (70_reset_and_hazards.md section 1). -/

namespace Sys2Proof.Machine

/-- Every register, buffer and hidden state at its reset value (70_reset_and_hazards.md R175, R176). IMG, MSG, the parameters, the
level of `rst_n`, the host, the schedule and the count of free bytes are not the reset's. -/
def resetRegisters (s : State) : State :=
  { State.reset with
    params := s.params
    img := s.img
    msg := s.msg
    rstN := s.rstN
    host := s.host
    schedule := s.schedule
    freeCount := s.freeCount }

/-- The IMG bytes of the entries `0..n-1` (43_tiler.md R128). -/
def entriesAddrs (W n : Nat) : List Nat := (List.range n).flatMap (entryAddrs W)

/-- The IMG bytes that the running command could have written (70_reset_and_hazards.md R179): of entries `0..n-1` for ENCODE, of
entry IDX for TILE_STORE. A command that is to fail its checks could have written none (log 11). -/
def abandonedImg (s : State) : List Nat :=
  if s.busy then
    match decode s.latched with
    | .ok .encode => if encodeCheck s = .noError then entriesAddrs s.width.toNat (8 * s.encLen.toNat) else []
    | .ok (.tileStore idx) => if tileCheck idx s = .noError then entryAddrs s.width.toNat idx else []
    | _ => []
  else []

/-- The MSG bytes that the running command could have written (70_reset_and_hazards.md R179): `MSG[0..ceil8(N)-1]` for DECODE. -/
def abandonedMsg (s : State) : List Nat :=
  if s.busy then
    match decode s.latched with
    | .ok .decode => if decodeCheck s = .noError then List.range (ceil8 s.decBits.toNat) else []
    | _ => []
  else []

/-- A free byte for each address, from the `c`-th on (70_reset_and_hazards.md R179: any value in 0..255 for each). -/
def freeBytes (c : Nat) : List Nat → List (Nat × Byte)
  | [] => []
  | a :: rest => (a, Config.abandonedByte c) :: freeBytes (c + 1) rest

/-- `rst_n` goes to 0: the registers take their reset values, a running command is abandoned without completing, and each byte it
could have written takes any value (70_reset_and_hazards.md R178, R179, R180). -/
def assertReset (s : State) : State :=
  let img := abandonedImg s
  let msg := abandonedMsg s
  { resetRegisters s with
    img := s.img.writeAll (freeBytes s.freeCount img)
    msg := s.msg.writeAll (freeBytes (s.freeCount + img.length) msg)
    rstN := false
    freeCount := s.freeCount + img.length + msg.length }

/-- `rst_n` goes to 1 (70_reset_and_hazards.md R178). -/
def releaseReset (s : State) : State := { s with rstN := true }

end Sys2Proof.Machine
end

