-- ==== Sys2Proof/Machine/Engine.lean ====
section
/-! DEFINITION. Who moves: the engine's step, and one step of the interleaving (40_command.md R96; 20_memory.md R75). -/

namespace Sys2Proof.Machine

/-- The engine takes one step (40_command.md R96): none in phase IDLE; an illegal latched word ends with ILLEGAL_COMMAND; any
other word runs its command. -/
def engineStep (s : State) : Host.Outcome State Fault Refusal :=
  if s.busy then
    match decode s.latched with
    | .error _ => .next (raiseError .illegalCommand s)
    | .ok i => exec i s
  else .next s

/-- One turn. While `rst_n` is 0 the engine takes no step and no host access is performed (70_reset_and_hazards.md R178). -/
def takeTurn (t : Turn) (s : State) : Host.Outcome State Fault Refusal :=
  match t with
  | .engine => if s.rstN then engineStep s else .next s
  | .host => if s.rstN then hostStep s else .next s
  | .resetLow => .next (assertReset s)
  | .resetHigh => .next (releaseReset s)

/-- The turn taken when none is fixed in advance: the engine's while it is BUSY, otherwise the host's (70_reset_and_hazards.md
R191 asks that each moves eventually; log 6). -/
def defaultTurn (s : State) : Turn := if s.busy then .engine else .host

/-- One step of the interleaving: the next fixed turn, or the default one (20_memory.md R75, 70_reset_and_hazards.md R193). -/
def interleave (s : State) : Host.Outcome State Fault Refusal :=
  match s.schedule with
  | [] => takeTurn (defaultTurn s) s
  | t :: rest => takeTurn t { s with schedule := rest }

/-- A command word placed as the CMD write that starts it leaves it (40_command.md R93), with `rst_n` released and the next turn
the engine's, so that the next step runs its CHECK step (log 14). -/
def placeCommand (w : Word) (s : State) : State :=
  { accept w s with rstN := true, schedule := .engine :: s.schedule }

end Sys2Proof.Machine
end

