-- ==== Sys2Proof/Machine/Step.lean ====
section
/-! DEFINITION. The step of the machine. -/

namespace Sys2Proof.Machine

/-- One atomic step of the interleaving of host accesses, engine steps and changes of `rst_n` (20_memory.md R75). -/
def step (s : State) : Host.Outcome State Fault Refusal := interleave s

/-- The state with the command word `w` (its low `nbits` bits) accepted, so that the next step runs it (40_command.md R93; log 14). -/
def State.withFetchWord (s : State) (nbits w : Nat) : State := placeCommand (BitVec.ofNat 32 (w % 2 ^ nbits)) s

end Sys2Proof.Machine
end

