-- ==== Sys2Proof/Safety.lean ====
section
/-! DEFINITION. What a safe run is: the invariant of the machine, the conditions under which a command runs without a fault, and
the outcomes of a command, in the terms the statements use. -/

namespace Sys2Proof.Machine

/-! ### The invariant -/

/-- IMG and MSG are in canonical form and hold only bytes that exist (20_memory.md R62, R63). -/
abbrev State.memoriesOk (s : State) : Prop :=
  s.img.wf ∧ s.img.within s.params.imgBytes ∧ s.msg.wf ∧ s.msg.within s.params.msgBytes

/-- ERR is 1 exactly when ERR_CODE is not 0, and a BUSY engine shows no error (10_state.md R29). -/
abbrev State.statusOk (s : State) : Prop :=
  (s.status.err = true ↔ s.status.errCode ≠ .noError) ∧ (s.busy = true → s.status.err = false)

/-- A command that is not yet checked has no warning pending (40_command.md R93). -/
abbrev State.checkOk (s : State) : Prop := s.phase = .check → s.warnPending = false

/-- In phase LOOP an ENCODE or DECODE that passed its checks is before one of its entries, which PROGRESS shows; DECODE has no
warning pending, and its accumulator holds only the bits received since the last message byte (10_state.md R44, R51 to R53;
45_codec.md R147 to R155). -/
abbrev State.loopOk (s : State) : Prop :=
  s.phase = .loop →
    s.i < s.n ∧ s.progress = BitVec.ofNat 32 s.i ∧
    ((decode s.latched = .ok .encode ∧ encodeCheck s = .noError ∧ s.n = 8 * s.encLen.toNat) ∨
     (decode s.latched = .ok .decode ∧ decodeCheck s = .noError ∧ s.n = s.decBits.toNat ∧ s.warnPending = false ∧
        s.acc.toNat % 2 ^ (8 - s.i % 8) = 0))

/-- While `rst_n` is 0 every register, buffer and hidden state has its reset value (70_reset_and_hazards.md R178). -/
abbrev State.resetOk (s : State) : Prop := s.rstN = false → s = resetRegisters s

/-- The invariant that every step keeps. -/
abbrev State.Inv (s : State) : Prop :=
  s.params.valid ∧ s.memoriesOk ∧ s.statusOk ∧ s.checkOk ∧ s.loopOk ∧ s.resetOk

/-! ### What must be written before a command reads it (20_memory.md R84, 70_reset_and_hazards.md R182) -/

/-- Every image byte of entry `i` has been written. -/
abbrev State.entryWritten (s : State) (i : Nat) : Prop :=
  ∀ k : Fin 64, (s.img.read (sampleAddr s.width.toNat i k.val)).isSome = true

/-- Every image byte of the first `n` entries has been written. -/
abbrev State.entriesWritten (s : State) (n : Nat) : Prop := ∀ i < n, s.entryWritten i

/-- The first `L` message bytes have been written. -/
abbrev State.messageWritten (s : State) (L : Nat) : Prop := ∀ j < L, (s.msg.read j).isSome = true

/-- The image geometry passes the checks that every tiling command makes (60_exceptions.md R158, codes 5 and 1). -/
abbrev State.geometryOk (s : State) : Prop :=
  s.width.toNat * s.height.toNat * 3 ≤ s.params.imgBytes ∧ 8 ≤ s.width.toNat ∧ 8 ≤ s.height.toNat

/-- An accepted command that the engine runs step by step, no other turn being fixed: `rst_n` is 1, the phase is CHECK. -/
abbrev State.accepted (s : State) (i : Instr) : Prop :=
  s.rstN = true ∧ s.schedule = [] ∧ s.phase = .check ∧ decode s.latched = .ok i

/-! ### The outcomes of a command (40_command.md R94, R95), written out -/

/-- The engine after a command that ended without an error in state `s`. -/
abbrev State.finished (s : State) : State :=
  { s with
    phase := .idle
    intStatus := { done := true, warn := s.intStatus.warn || s.warnPending, erri := s.intStatus.erri } }

/-- The engine after a command that ended with error `e` in state `s`. -/
abbrev State.failed (s : State) (e : ErrorCode) : State :=
  { s with
    phase := .idle
    status := { s.status with err := true, errCode := e }
    intStatus := { done := true, warn := s.intStatus.warn || s.warnPending, erri := true } }

/-- The transaction of a 4-byte host write (30_encoding.md R90, `W32`). -/
abbrev write32 (off : Offset) (v : Word) : Transaction := { addr := off, write := true, size := 2#2, wdata := v }

/-- The transaction of a 4-byte host read (30_encoding.md R90, `R32`). -/
abbrev read32 (off : Offset) : Transaction := { addr := off, write := false, size := 2#2, wdata := 0#32 }

/-- The state after a refused access: only the answer on the bus ports changes (20_memory.md R61). -/
abbrev State.refusedAccess (s : State) (t : Transaction) : State :=
  { s with lastResponse := some (if t.write then .write .error else .read .error 0#32) }

/-- A sequence of commands, each run from the state the one before it leaves (70_reset_and_hazards.md R189). -/
def execAll : List Instr → State → Host.Outcome State Fault Refusal
  | [], s => .next s
  | i :: rest, s =>
    match exec i s with
    | .next t => execAll rest t
    | .fault f => .fault f
    | .refused r => .refused r

/-! ### What the codec computes from an image -/

/-- The parity of the quantized DC coefficient of entry `i`, the bit DECODE reads (45_codec.md R155). -/
def dcParity (p : Params) (img : Memory) (W i : Nat) : Bool :=
  extractBit (quantize p (saturateBlock (fdctExact (loadedBlock img W i))))[0]

/-- The block ENCODE makes of a loaded block and a payload bit, before it is converted to samples (45_codec.md R149). -/
def stegoBlock (p : Params) (blk : Block) (b : Bool) : Block :=
  let q := quantize p (saturateBlock (fdctExact blk))
  saturateBlock (idctExact (saturateBlock (dequantExact p (q.set 0 (embedBit q[0] b)))))

/-- Message byte `j` made of `N` received bits (44_bitstream.md R136): bit `8j + t` has weight `2^(7-t)`, a bit beyond the `N`-th is 0. -/
def assembledByte (bit : Nat → Bool) (N j : Nat) : Byte :=
  BitVec.ofNat 8 (((List.range 8).map fun t => if 8 * j + t < N ∧ bit (8 * j + t) = true then 2 ^ (7 - t) else 0).sum)

end Sys2Proof.Machine
end

