-- ==== Sys2Proof/Certificates/Slice0/Obligations.lean ====
section
/-! DEFINITION. The statements for the provers. Each docstring names the rule of spec/ it formalises. -/

open Sys2Proof Sys2Proof.Machine

/-! ### The command word -/

/-- Decode and encode agree: the word of every well-formed command decodes to it (30_encoding.md R86, R87, R90). -/
def Obligations.DecodeOfEncodeIsTheCommand : Prop :=
  ∀ i : Instr, i.wf = true → decode (encode i) = .ok i

/-- The other direction: a word that decodes is the word of what it decodes to, so no bit is ignored (30_encoding.md R86 to R88). -/
def Obligations.EncodeOfDecodeIsTheWord : Prop :=
  ∀ (w : Word) (i : Instr), decode w = .ok i → i.wf = true ∧ encode i = w

/-- The opcode map: at most one row matches any word; the matching row is that of the command decoded; a word that matches no
row is illegal, and only such a word (30_encoding.md R87). -/
def Obligations.OpcodeMapSelectsOneRow : Prop :=
  ∀ w : Word,
    (∀ r ∈ opcodeMap, ∀ r' ∈ opcodeMap, r.selects w = true → r'.selects w = true → r = r') ∧
    (∀ i, decode w = .ok i → ∃ r ∈ opcodeMap, r.selects w = true ∧ r.mnemonic = i.mnemonic) ∧
    ((∃ e, decode w = .error e) ↔ ∀ r ∈ opcodeMap, r.selects w = false)

/-- Illegal words: exactly those of the four conditions; the CMD write of one is accepted like any other, and the check step ends
the command with ILLEGAL_COMMAND, code 4, and no other effect (30_encoding.md R88). -/
def Obligations.IllegalWordsEndWithIllegalCommand : Prop :=
  (∀ w : Word, (∃ e, decode w = .error e) ↔
    (11 ≤ w.toNat % 16 ∨ w.toNat / 32 % 8 ≠ 0 ∨ (w.toNat / 16 % 2 = 1 ∧ w.toNat % 16 ≠ 7) ∨
      (w.toNat / 256 ≠ 0 ∧ w.toNat % 16 ≠ 9 ∧ w.toNat % 16 ≠ 10))) ∧
  (∀ (w : Word) (e : Illegal) (s : State), decode w = .error e → s.busy = false →
    hostAccess (write32 0x008#25 w) s = .next { accept w s with lastResponse := some (.write .okay) } ∧
    (accept w s).busy = true ∧
    engineStep (accept w s) = .next ((accept w s).failed .illegalCommand)) ∧
  ErrorCode.illegalCommand.bits = 4#4

/-- A sanity check of the decoder on words written out from 30_encoding.md R86, R90 and 95_test_vectors.md section 2.7. -/
def Obligations.CommandWordsDecodeAsTheSpecListsThem : Prop :=
  decode 0x00000000#32 = .ok .nop ∧ decode 0x00000001#32 = .ok .encode ∧ decode 0x00000002#32 = .ok .decode ∧
  decode 0x00000003#32 = .ok .fdct ∧ decode 0x00000006#32 = .ok .dequant ∧ decode 0x00000008#32 = .ok .extract ∧
  decode 0x00000017#32 = .ok (.embed true) ∧ decode 0x00000309#32 = .ok (.tileLoad 3) ∧
  decode 0xFFFFFF0A#32 = .ok (.tileStore 16777215) ∧ decode 0x0000000B#32 = .error .reservedOp ∧
  decode 0x00000097#32 = .error .reservedBits ∧ decode 0x0000001A#32 = .error .bitOutsideEmbed ∧
  decode 0x00000103#32 = .error .indexOutsideTile

/-! ### One step -/

/-- A step runs the decoded command: with `rst_n` at 1 and a command running, the engine's turn is one step of the command that
the latched word decodes to, in the state after the turn is taken off the schedule; with no turn fixed the engine moves
(40_command.md R96; the turn taken with an empty schedule is the model's choice, log 6). -/
def Obligations.StepRunsTheLatchedCommand : Prop :=
  ∀ (s : State) (i : Instr), s.rstN = true → s.phase ≠ .idle → decode s.latched = .ok i →
    (∀ rest, s.schedule = .engine :: rest → step s = exec i { s with schedule := rest }) ∧
    (s.schedule = [] → step s = exec i s)

/-- The other turns: the host's turn performs its next access whole and takes it off the host's program; POLL reads STATUS and stays
until it shows BUSY = 0; CHECKOK reads STATUS and goes on if bits [7:1] are 0; the engine takes no step in phase IDLE; with nothing
to do the machine waits (20_memory.md R69, R74; 30_encoding.md R91; 40_command.md R96; 70_reset_and_hazards.md R177). The model's
choices: that with an empty schedule and an idle engine the turn is the host's (log 6), that waiting is a step that changes nothing
(log 7), that POLL reads once in a turn and that a CHECKOK whose bits are not 0 is a fault (log 16). -/
def Obligations.StepGivesTheHostItsTurn : Prop :=
  (∀ (s : State) (t : Transaction) (more : List HostStmt), s.rstN = true → s.host = .access t :: more →
    (∀ rest, s.schedule = .host :: rest → step s = hostAccess t { s with schedule := rest, host := more }) ∧
    (s.schedule = [] → s.phase = .idle → step s = hostAccess t { s with host := more })) ∧
  (∀ (s : State) (more : List HostStmt) (rest : List Turn), s.rstN = true → s.schedule = .host :: rest →
    (s.host = .poll :: more → s.phase ≠ .idle →
      step s = .next { s with schedule := rest, lastResponse := some (.read .okay (statusWord s)) }) ∧
    (s.host = .poll :: more → s.phase = .idle →
      step s = .next { s with schedule := rest, host := more, lastResponse := some (.read .okay (statusWord s)) }) ∧
    (s.host = .checkOk :: more → (statusWord s).extractLsb' 1 7 = 0#7 →
      step s = .next { s with schedule := rest, host := more, lastResponse := some (.read .okay (statusWord s)) }) ∧
    (s.host = .checkOk :: more → (statusWord s).extractLsb' 1 7 ≠ 0#7 → step s = .fault .checkFailed) ∧
    (s.host = [] → step s = .next { s with schedule := rest })) ∧
  (∀ s : State, s.phase = .idle →
    (∀ rest, s.schedule = .engine :: rest → step s = .next { s with schedule := rest }) ∧
    (s.schedule = [] → s.host = [] → step s = .next s))

/-! ### The command protocol -/

/-- A CMD write while BUSY is refused: it gets ERROR, sets OVR, and changes nothing else (40_command.md R92). -/
def Obligations.CmdWriteWhileBusyIsRefused : Prop :=
  ∀ (s : State) (w : Word), s.busy = true →
    hostAccess (write32 0x008#25 w) s =
      .next { s with status := { s.status with ovr := true }, lastResponse := some (.write .error) }

/-- A CMD write while idle is accepted, whatever the word, and makes exactly the assignments of the rule (40_command.md R93). -/
def Obligations.CmdWriteWhileIdleIsAccepted : Prop :=
  ∀ (s : State) (w : Word), s.busy = false →
    hostAccess (write32 0x008#25 w) s =
      .next { s with
        latched := w
        status := { s.status with err := false, errCode := .noError }
        warnPending := false
        phase := .check
        lastResponse := some (.write .okay) } ∧
    (accept w s).busy = true

/-- NOP only completes; an illegal word with OP = 0 is not NOP; and `RUN NOP` from reset, the turns fixed as host, engine, host,
leaves STATUS 0 and INT_STATUS 1 (40_command.md R97). -/
def Obligations.NopOnlyCompletes : Prop :=
  (∀ s : State, exec .nop s = .next s.finished) ∧
  decode 0x00000000#32 = .ok .nop ∧
  (∀ s : State, s.latched = 0x00000010#32 → s.phase = .check →
    engineStep s = .next (s.failed .illegalCommand)) ∧
  (∃ t : State,
    Host.Core.run Sys2Proof.core 3
      { State.reset with host := HostStmt.run 0x00000000#32, schedule := [.host, .engine, .host] } = .next t ∧
    t.phase = .idle ∧ t.host = [] ∧ statusWord t = 0x00000000#32 ∧ t.intStatus.word = 0x00000001#32)

/-- Completion and its events: a command step that leaves the engine IDLE sets DONE, sets ERRI exactly when it ends with an error
and WARN exactly when a warning is pending, and bits already 1 stay 1; a step that leaves it running touches no event
(40_command.md R95; 60_exceptions.md R164). -/
def Obligations.CompletionSetsItsEvents : Prop :=
  ∀ (i : Instr) (s t : State), s.phase ≠ .idle → s.status.err = false → exec i s = .next t →
    (t.phase = .idle →
      t.intStatus = { done := true, warn := s.intStatus.warn || t.warnPending, erri := s.intStatus.erri || t.status.err }) ∧
    (t.phase ≠ .idle → t.intStatus = s.intStatus ∧ t.status.err = false)

/-! ### Registers and the bus -/

/-- The reset values of every register and field, whatever ran before, and those of the reset state (70_reset_and_hazards.md R175). -/
def Obligations.ResetGivesEveryRegisterItsValue : Prop :=
  ∀ s u : State, u = releaseReset (assertReset s) ∨ u = { State.reset with params := s.params } →
    csrRead .id u = 0x44435438#32 ∧ csrRead .status u = 0#32 ∧ csrRead .cmd u = 0#32 ∧
    csrRead .intStatus u = 0#32 ∧ csrRead .intEnable u = 0#32 ∧ csrRead .width u = 0#32 ∧ csrRead .height u = 0#32 ∧
    csrRead .encLen u = 0#32 ∧ csrRead .decBits u = 0#32 ∧ csrRead .capacity u = 0#32 ∧ csrRead .progress u = 0#32 ∧
    csrRead .clampCnt u = 0#32 ∧ csrRead .imgSize u = BitVec.ofNat 32 s.params.imgBytes ∧
    csrRead .msgSize u = BitVec.ofNat 32 s.params.msgBytes ∧
    (∀ k : Fin 64, u.blk[k] = 0#32 ∧ u.coef[k] = 0#32 ∧ u.qblk[k] = 0#32 ∧ u.params.qtab[k] = s.params.qtab[k]) ∧
    u.irq = false

/-- STATUS as the host reads it at any time, bit by bit, with BUSY = 1 exactly when the phase is not IDLE, and the numbers of the
error codes (10_state.md R28, R51; 60_exceptions.md R158). -/
def Obligations.StatusReadsItsFields : Prop :=
  (∀ s : State,
    hostAccess (read32 0x004#25) s = .next { s with lastResponse := some (.read .okay (statusWord s)) } ∧
    ((statusWord s).getLsbD 0 = true ↔ s.phase ≠ .idle) ∧
    (statusWord s).getLsbD 1 = s.status.err ∧
    (statusWord s).extractLsb' 4 4 = s.status.errCode.bits ∧
    (statusWord s).getLsbD 8 = s.status.lastBit ∧
    (statusWord s).getLsbD 16 = s.status.sat ∧
    (statusWord s).getLsbD 17 = s.status.ovr ∧
    (∀ b ∈ [2, 3, 9, 10, 11, 12, 13, 14, 15, 18, 19, 20, 21, 22, 23, 24, 25, 26, 27, 28, 29, 30, 31],
      (statusWord s).getLsbD b = false)) ∧
  (ErrorCode.noError.bits = 0#4 ∧ ErrorCode.imageTooSmall.bits = 1#4 ∧ ErrorCode.capacityExceeded.bits = 2#4 ∧
    ErrorCode.truncatedPayload.bits = 3#4 ∧ ErrorCode.illegalCommand.bits = 4#4 ∧ ErrorCode.imageTooLarge.bits = 5#4 ∧
    ErrorCode.indexOutOfRange.bits = 6#4)

/-- A write to STATUS is legal at any time and clears SAT and OVR where it writes 1, and nothing else (10_state.md R33). -/
def Obligations.StatusWriteClearsSatAndOvr : Prop :=
  ∀ (s : State) (v : Word),
    hostAccess (write32 0x004#25 v) s =
      .next { s with
        status := { s.status with sat := s.status.sat && !v.getLsbD 16, ovr := s.status.ovr && !v.getLsbD 17 }
        lastResponse := some (.write .okay) }

/-- INT_STATUS reads its three bits and is cleared by writing 1, at any time; a clear that meets the completion of any command is the
access before the step, so each bit the completion sets wins: DONE always, WARN when a warning is pending, ERRI when the command ends
with an error (10_state.md R35; that a same-cycle pair is this order is the model's reading, log 8). A running command has no error
recorded (10_state.md R29), which the invariant states. -/
def Obligations.IntStatusWriteClearsAndTheSetWins : Prop :=
  (∀ (s : State) (v : Word),
    hostAccess (write32 0x00C#25 v) s =
      .next { s with
        intStatus := { done := s.intStatus.done && !v.getLsbD 0, warn := s.intStatus.warn && !v.getLsbD 1,
                       erri := s.intStatus.erri && !v.getLsbD 2 }
        lastResponse := some (.write .okay) }) ∧
  (∀ s : State, hostAccess (read32 0x00C#25) s = .next { s with lastResponse := some (.read .okay s.intStatus.word) } ∧
    s.intStatus.word.getLsbD 0 = s.intStatus.done ∧ s.intStatus.word.getLsbD 1 = s.intStatus.warn ∧
    s.intStatus.word.getLsbD 2 = s.intStatus.erri ∧ s.intStatus.word.extractLsb' 3 29 = 0#29) ∧
  (∀ (s u t : State) (v : Word), s.phase ≠ .idle → s.status.err = false →
    hostAccess (write32 0x00C#25 v) s = .next u → engineStep u = .next t → t.phase = .idle →
    t.intStatus = { done := true, warn := (s.intStatus.warn && !v.getLsbD 1) || t.warnPending,
                    erri := (s.intStatus.erri && !v.getLsbD 2) || t.status.err }) ∧
  (∀ (s u : State) (v : Word), s.phase = .check → decode s.latched = .ok .nop →
    hostAccess (write32 0x00C#25 v) s = .next u → ∃ t, engineStep u = .next t ∧ t.phase = .idle ∧ t.intStatus.done = true)

/-- INT_ENABLE is read-write at any time; bits [2:0] are kept, bits [31:3] read 0 and ignore writes; it is 0 after reset
(10_state.md R36). -/
def Obligations.IntEnableKeepsItsThreeBits : Prop :=
  (∀ (s : State) (v : Word), ∃ t, hostAccess (write32 0x010#25 v) s = .next t ∧
    t = { s with intEnable := t.intEnable, lastResponse := some (.write .okay) } ∧
    t.intEnable = { done := v.getLsbD 0, warn := v.getLsbD 1, erri := v.getLsbD 2 } ∧
    hostAccess (read32 0x010#25) t = .next { t with lastResponse := some (.read .okay (v &&& 0x7#32)) }) ∧
  csrRead .intEnable State.reset = 0#32

/-- The interrupt line is the OR of the enabled pending bits, 0 after reset; no command step and no other engine step lowers it, and
no host access but a write of INT_STATUS or INT_ENABLE changes it, so it stays asserted until the host clears the bits or the
enables, either of which lowers it (10_state.md R37). -/
def Obligations.InterruptLineIsLevelSensitive : Prop :=
  (∀ s : State, s.irq =
    ((csrRead .intStatus s).getLsbD 0 && (csrRead .intEnable s).getLsbD 0 ||
     (csrRead .intStatus s).getLsbD 1 && (csrRead .intEnable s).getLsbD 1 ||
     (csrRead .intStatus s).getLsbD 2 && (csrRead .intEnable s).getLsbD 2)) ∧
  (∀ (i : Instr) (s t : State), exec i s = .next t → s.irq = true → t.irq = true) ∧
  (∀ s t : State, engineStep s = .next t → s.irq = true → t.irq = true) ∧
  (∀ (s t : State) (x : Transaction), hostAccess x s = .next t →
    (x.write = true → regionOf s.params x.addr.toNat ≠ .csr .intStatus ∧ regionOf s.params x.addr.toNat ≠ .csr .intEnable) →
    t.irq = s.irq) ∧
  (∀ s : State, (∃ t, hostAccess (write32 0x00C#25 0x7#32) s = .next t ∧ t.irq = false) ∧
    (∃ t, hostAccess (write32 0x010#25 0x0#32) s = .next t ∧ t.irq = false)) ∧
  State.reset.irq = false ∧ (∀ s : State, (assertReset s).irq = false)

/-- CAPACITY always reads `floor(HEIGHT/8) * floor(WIDTH/8) * 3`, which fits; a write gets ERROR; it is 0 after reset
(10_state.md R42). -/
def Obligations.CapacityIsComputedFromTheGeometry : Prop :=
  (∀ s : State, ∃ d : Word, hostAccess (read32 0x024#25) s = .next { s with lastResponse := some (.read .okay d) } ∧
    d.toNat = s.height.toNat / 8 * (s.width.toNat / 8) * 3 ∧ d.toNat ≤ 201277443) ∧
  (∀ (s : State) (v : Word), hostAccess (write32 0x024#25 v) s = .next { s with lastResponse := some (.write .error) }) ∧
  csrRead .capacity State.reset = 0#32

/-- WIDTH, HEIGHT, ENC_LEN, DEC_BITS and CLAMP_CNT: a write while idle is kept (its low 16 bits for the geometry); a read at any time
returns the value, zero-extended; a write while BUSY gets ERROR and changes nothing; each is 0 after reset (10_state.md R38 to
R41, R45). -/
def Obligations.OperandRegistersAreWritableWhileIdle : Prop :=
  (∀ (s : State) (v : Word), s.busy = false →
    hostAccess (write32 0x014#25 v) s = .next { s with width := v.setWidth 16, lastResponse := some (.write .okay) } ∧
    hostAccess (write32 0x018#25 v) s = .next { s with height := v.setWidth 16, lastResponse := some (.write .okay) } ∧
    hostAccess (write32 0x01C#25 v) s = .next { s with encLen := v, lastResponse := some (.write .okay) } ∧
    hostAccess (write32 0x020#25 v) s = .next { s with decBits := v, lastResponse := some (.write .okay) } ∧
    hostAccess (write32 0x02C#25 v) s = .next { s with clampCnt := v, lastResponse := some (.write .okay) }) ∧
  (∀ (s : State) (v : Word), s.busy = true → ∀ off ∈ [0x014#25, 0x018#25, 0x01C#25, 0x020#25, 0x02C#25],
    hostAccess (write32 off v) s = .next { s with lastResponse := some (.write .error) }) ∧
  (∀ s : State, (csrRead .width s).toNat = s.width.toNat ∧ (csrRead .height s).toNat = s.height.toNat ∧
    csrRead .encLen s = s.encLen ∧ csrRead .decBits s = s.decBits) ∧
  (∀ s : State,
    hostAccess (read32 0x014#25) s = .next { s with lastResponse := some (.read .okay (s.width.setWidth 32)) } ∧
    hostAccess (read32 0x018#25) s = .next { s with lastResponse := some (.read .okay (s.height.setWidth 32)) } ∧
    hostAccess (read32 0x01C#25) s = .next { s with lastResponse := some (.read .okay s.encLen) } ∧
    hostAccess (read32 0x020#25) s = .next { s with lastResponse := some (.read .okay s.decBits) } ∧
    hostAccess (read32 0x02C#25) s = .next { s with lastResponse := some (.read .okay s.clampCnt) }) ∧
  State.reset.width = 0#16 ∧ State.reset.height = 0#16 ∧ State.reset.encLen = 0#32 ∧ State.reset.decBits = 0#32 ∧
  State.reset.clampCnt = 0#32

/-- The read-only registers, at any time: ID reads the constant `0x44435438`, IMG_SIZE and MSG_SIZE the parameters, PROGRESS its value
and QTAB[k] its divisor in bits [7:0]; CMD holds no value and reads 0; a write of any of them but CMD gets ERROR and changes nothing;
no step and no reset changes the parameters (10_state.md R27, R34, R44, R46, R50). -/
def Obligations.ReadOnlyRegistersRefuseWrites : Prop :=
  (∀ s : State,
    hostAccess (read32 0x000#25) s = .next { s with lastResponse := some (.read .okay 0x44435438#32) } ∧
    hostAccess (read32 0x008#25) s = .next { s with lastResponse := some (.read .okay 0#32) } ∧
    hostAccess (read32 0x028#25) s = .next { s with lastResponse := some (.read .okay s.progress) } ∧
    hostAccess (read32 0x030#25) s = .next { s with lastResponse := some (.read .okay (BitVec.ofNat 32 s.params.imgBytes)) } ∧
    hostAccess (read32 0x034#25) s = .next { s with lastResponse := some (.read .okay (BitVec.ofNat 32 s.params.msgBytes)) } ∧
    (∀ k : Fin 64, ∃ d : Word,
      hostAccess (read32 (BitVec.ofNat 25 (0x1300 + 4 * k))) s = .next { s with lastResponse := some (.read .okay d) } ∧
      d.extractLsb' 0 8 = s.params.qtab[k] ∧ d.extractLsb' 8 24 = 0#24)) ∧
  (∀ (s : State) (v : Word),
    (∀ off ∈ [0x000#25, 0x028#25, 0x030#25, 0x034#25],
      hostAccess (write32 off v) s = .next { s with lastResponse := some (.write .error) }) ∧
    (∀ k : Fin 64,
      hostAccess (write32 (BitVec.ofNat 25 (0x1300 + 4 * k)) v) s = .next { s with lastResponse := some (.write .error) })) ∧
  (∀ s : State, s.params.valid →
    (csrRead .imgSize s).toNat = s.params.imgBytes ∧ (csrRead .msgSize s).toNat = s.params.msgBytes) ∧
  (∀ s t : State, step s = .next t → t.params = s.params) ∧
  (∀ s : State, (assertReset s).params = s.params)

/-- Host access while BUSY: CSR and QTAB reads are answered, writes of STATUS, INT_STATUS and INT_ENABLE are performed, a CMD
write sets OVR, an operand write and every access to a buffer or a memory is refused. While idle every admitted access is performed:
a read of a register or a buffer word returns its value; a read of MSG or IMG gets OKAY when its bytes are written (which bytes it
returns is said by MemoryAccessesAreLittleEndian) and faults when one is not (log 1, which follows 20_memory.md section 4); a write
of a buffer word or of CLAMP_CNT stores the word and changes nothing else, a write of MSG or IMG changes only that memory, and every
other write of a writable register gets OKAY (20_memory.md sections 3 and 4). -/
def Obligations.BusyEngineRefusesItsOperandsAndMemories : Prop :=
  (∀ (s : State) (t : Transaction), s.busy = true → legalShape (regionOf s.params t.addr.toNat) t = true →
    (∀ c, regionOf s.params t.addr.toNat = .csr c → t.write = false →
      hostAccess t s = .next { s with lastResponse := some (.read .okay (csrRead c s)) }) ∧
    (∀ k, regionOf s.params t.addr.toNat = .qtab k → t.write = false →
      hostAccess t s = .next { s with lastResponse := some (.read .okay ((s.params.qtab[k]).setWidth 32)) }) ∧
    (∀ c ∈ [Csr.status, Csr.intStatus, Csr.intEnable], regionOf s.params t.addr.toNat = .csr c → t.write = true →
      ∃ u, hostAccess t s = .next u ∧ u.lastResponse = some (.write .okay)) ∧
    (regionOf s.params t.addr.toNat = .csr .cmd → t.write = true →
      hostAccess t s = .next { s with status := { s.status with ovr := true }, lastResponse := some (.write .error) }) ∧
    (∀ c ∈ [Csr.width, Csr.height, Csr.encLen, Csr.decBits, Csr.clampCnt], regionOf s.params t.addr.toNat = .csr c →
      t.write = true → hostAccess t s = .next (s.refusedAccess t)) ∧
    (((∃ k, regionOf s.params t.addr.toNat = .blk k ∨ regionOf s.params t.addr.toNat = .coef k ∨
        regionOf s.params t.addr.toNat = .qblk k) ∨
      (∃ a, regionOf s.params t.addr.toNat = .msg a ∨ regionOf s.params t.addr.toNat = .img a)) →
      hostAccess t s = .next (s.refusedAccess t))) ∧
  (∀ (s : State) (t : Transaction), s.busy = false → legalShape (regionOf s.params t.addr.toNat) t = true → t.write = false →
    (∀ c, regionOf s.params t.addr.toNat = .csr c →
      hostAccess t s = .next { s with lastResponse := some (.read .okay (csrRead c s)) }) ∧
    (∀ k,
      (regionOf s.params t.addr.toNat = .qtab k →
        hostAccess t s = .next { s with lastResponse := some (.read .okay ((s.params.qtab[k]).setWidth 32)) }) ∧
      (regionOf s.params t.addr.toNat = .blk k →
        hostAccess t s = .next { s with lastResponse := some (.read .okay s.blk[k]) }) ∧
      (regionOf s.params t.addr.toNat = .coef k →
        hostAccess t s = .next { s with lastResponse := some (.read .okay s.coef[k]) }) ∧
      (regionOf s.params t.addr.toNat = .qblk k →
        hostAccess t s = .next { s with lastResponse := some (.read .okay s.qblk[k]) })) ∧
    (∀ a n, t.bytes = some n →
      (regionOf s.params t.addr.toNat = .msg a →
        ((∀ j < n, (s.msg.read (a + j)).isSome = true) →
          ∃ d, hostAccess t s = .next { s with lastResponse := some (.read .okay d) }) ∧
        ((∃ j < n, s.msg.read (a + j) = none) → ∃ b, hostAccess t s = .fault (.unwrittenByte .msg b))) ∧
      (regionOf s.params t.addr.toNat = .img a →
        ((∀ j < n, (s.img.read (a + j)).isSome = true) →
          ∃ d, hostAccess t s = .next { s with lastResponse := some (.read .okay d) }) ∧
        ((∃ j < n, s.img.read (a + j) = none) → ∃ b, hostAccess t s = .fault (.unwrittenByte .img b))))) ∧
  (∀ (s : State) (t : Transaction), s.busy = false → legalShape (regionOf s.params t.addr.toNat) t = true → t.write = true →
    (∀ k,
      (regionOf s.params t.addr.toNat = .blk k → ∃ u, hostAccess t s = .next u ∧
        u.blk[k] = t.wdata ∧ (∀ k' : Fin 64, k' ≠ k → u.blk[k'] = s.blk[k']) ∧
        u = { s with blk := u.blk, lastResponse := some (.write .okay) }) ∧
      (regionOf s.params t.addr.toNat = .coef k → ∃ u, hostAccess t s = .next u ∧
        u.coef[k] = t.wdata ∧ (∀ k' : Fin 64, k' ≠ k → u.coef[k'] = s.coef[k']) ∧
        u = { s with coef := u.coef, lastResponse := some (.write .okay) }) ∧
      (regionOf s.params t.addr.toNat = .qblk k → ∃ u, hostAccess t s = .next u ∧
        u.qblk[k] = t.wdata ∧ (∀ k' : Fin 64, k' ≠ k → u.qblk[k'] = s.qblk[k']) ∧
        u = { s with qblk := u.qblk, lastResponse := some (.write .okay) })) ∧
    (regionOf s.params t.addr.toNat = .csr .clampCnt →
      hostAccess t s = .next { s with clampCnt := t.wdata, lastResponse := some (.write .okay) }) ∧
    (∀ a,
      (regionOf s.params t.addr.toNat = .msg a → ∃ u, hostAccess t s = .next u ∧
        u = { s with msg := u.msg, lastResponse := some (.write .okay) }) ∧
      (regionOf s.params t.addr.toNat = .img a → ∃ u, hostAccess t s = .next u ∧
        u = { s with img := u.img, lastResponse := some (.write .okay) })) ∧
    ((∀ k, regionOf s.params t.addr.toNat ≠ .qtab k) →
      (∀ c ∈ [Csr.id, Csr.capacity, Csr.progress, Csr.imgSize, Csr.msgSize], regionOf s.params t.addr.toNat ≠ .csr c) →
      ∃ u, hostAccess t s = .next u ∧ u.lastResponse = some (.write .okay)))

/-- An access that gets ERROR is a read that returns 0, or a write with no effect on any state, but that the CMD write while BUSY
sets OVR; so it raises no interrupt and STATUS records nothing else (20_memory.md section 1). That only a CMD write of size 4 sets
OVR, a narrow or misaligned one being refused for its shape first, is the model's reading (log 10). -/
def Obligations.ErrorResponsesHaveNoEffect : Prop :=
  ∀ (s t : State) (x : Transaction), hostAccess x s = .next t →
    (∀ d, t.lastResponse = some (.read .error d) → d = 0#32 ∧ t = { s with lastResponse := some (.read .error 0#32) }) ∧
    (t.lastResponse = some (.write .error) →
      t = { s with lastResponse := some (.write .error) } ∨
      (s.busy = true ∧ x.addr = 0x008#25 ∧ x.size = 2#2 ∧ x.write = true ∧
        t = { s with status := { s.status with ovr := true }, lastResponse := some (.write .error) })) ∧
    ((∃ r, t.lastResponse = some r ∧ (r = .write .error ∨ ∃ d, r = .read .error d)) →
      t.irq = s.irq ∧ statusWord t = statusWord { s with status := { s.status with ovr := t.status.ovr } })

/-- The address map, and sizes and alignment: which register, buffer word or byte each offset addresses, and which offsets are
reserved; size 3, a misaligned access, another size than 4 at a word register and any access to a reserved offset get ERROR with no
effect; MSG and IMG take 1, 2 and 4 bytes, every word register takes 4; and no aligned access crosses the end of a memory
(10_state.md section 3; 20_memory.md section 1). That this holds of a narrow or misaligned write at the CMD offset while BUSY too, which
then does not set OVR, is the model's reading (log 10). -/
def Obligations.IllegalSizesAndOffsetsGetError : Prop :=
  (∀ (s : State) (t : Transaction),
    (t.size = 3#2 ∨ (t.size = 1#2 ∧ t.addr.toNat % 2 ≠ 0) ∨ (t.size = 2#2 ∧ t.addr.toNat % 4 ≠ 0) ∨
     (t.size ≠ 2#2 ∧ ∀ a, regionOf s.params t.addr.toNat ≠ .msg a ∧ regionOf s.params t.addr.toNat ≠ .img a) ∨
     (0x038 ≤ t.addr.toNat ∧ t.addr.toNat < 0x1000) ∨ regionOf s.params t.addr.toNat = .reserved) →
    hostAccess t s = .next (s.refusedAccess t)) ∧
  (∀ (s : State) (t : Transaction) (a : Nat),
    (regionOf s.params t.addr.toNat = .msg a ∨ regionOf s.params t.addr.toNat = .img a) →
    (t.size = 0#2 ∨ (t.size = 1#2 ∧ t.addr.toNat % 2 = 0) ∨ (t.size = 2#2 ∧ t.addr.toNat % 4 = 0)) →
    legalShape (regionOf s.params t.addr.toNat) t = true) ∧
  (∀ (s : State) (t : Transaction), t.size = 2#2 → t.addr.toNat % 4 = 0 → regionOf s.params t.addr.toNat ≠ .reserved →
    legalShape (regionOf s.params t.addr.toNat) t = true) ∧
  (∀ (s : State) (t : Transaction) (a n : Nat), s.params.valid → t.bytes = some n →
    legalShape (regionOf s.params t.addr.toNat) t = true →
    (regionOf s.params t.addr.toNat = .msg a → a + n ≤ s.params.msgBytes) ∧
    (regionOf s.params t.addr.toNat = .img a → a + n ≤ s.params.imgBytes)) ∧
  (∀ p : Params, p.valid →
    (∀ b < 4,
      regionOf p (0x000 + b) = .csr .id ∧ regionOf p (0x004 + b) = .csr .status ∧ regionOf p (0x008 + b) = .csr .cmd ∧
      regionOf p (0x00C + b) = .csr .intStatus ∧ regionOf p (0x010 + b) = .csr .intEnable ∧
      regionOf p (0x014 + b) = .csr .width ∧ regionOf p (0x018 + b) = .csr .height ∧ regionOf p (0x01C + b) = .csr .encLen ∧
      regionOf p (0x020 + b) = .csr .decBits ∧ regionOf p (0x024 + b) = .csr .capacity ∧
      regionOf p (0x028 + b) = .csr .progress ∧ regionOf p (0x02C + b) = .csr .clampCnt ∧
      regionOf p (0x030 + b) = .csr .imgSize ∧ regionOf p (0x034 + b) = .csr .msgSize) ∧
    (∀ (k : Fin 64), ∀ b < 4,
      regionOf p (0x1000 + 4 * k + b) = .blk k ∧ regionOf p (0x1100 + 4 * k + b) = .coef k ∧
      regionOf p (0x1200 + 4 * k + b) = .qblk k ∧ regionOf p (0x1300 + 4 * k + b) = .qtab k) ∧
    (∀ j < p.msgBytes, regionOf p (0x10000 + j) = .msg j) ∧
    (∀ a < p.imgBytes, regionOf p (0x1000000 + a) = .img a) ∧
    (∀ off < 2 ^ 25,
      ((0x038 ≤ off ∧ off < 0x1000) ∨ (0x1400 ≤ off ∧ off < 0x10000) ∨ (0x10000 + p.msgBytes ≤ off ∧ off < 0x1000000) ∨
        0x1000000 + p.imgBytes ≤ off) → regionOf p off = .reserved))

/-- Multi-byte accesses to MSG and IMG are little-endian; a write stores exactly its bytes, and a read returns them with the high
bits 0 (20_memory.md R60). -/
def Obligations.MemoryAccessesAreLittleEndian : Prop :=
  ∀ (s : State) (t : Transaction) (a n : Nat), s.busy = false → t.bytes = some n →
    legalShape (regionOf s.params t.addr.toNat) t = true →
    (regionOf s.params t.addr.toNat = .img a →
      (t.write = true → ∃ u, hostAccess t s = .next u ∧
        u = { s with img := u.img, lastResponse := some (.write .okay) } ∧
        (∀ j < n, u.img.read (a + j) = some (t.wdata.extractLsb' (8 * j) 8)) ∧
        (∀ b, (b < a ∨ a + n ≤ b) → u.img.read b = s.img.read b)) ∧
      (t.write = false → (∀ j < n, (s.img.read (a + j)).isSome = true) →
        ∃ d : Word, hostAccess t s = .next { s with lastResponse := some (.read .okay d) } ∧
          ∀ j < 4, some (d.extractLsb' (8 * j) 8) = if j < n then s.img.read (a + j) else some 0#8)) ∧
    (regionOf s.params t.addr.toNat = .msg a →
      (t.write = true → ∃ u, hostAccess t s = .next u ∧
        u = { s with msg := u.msg, lastResponse := some (.write .okay) } ∧
        (∀ j < n, u.msg.read (a + j) = some (t.wdata.extractLsb' (8 * j) 8)) ∧
        (∀ b, (b < a ∨ a + n ≤ b) → u.msg.read b = s.msg.read b)) ∧
      (t.write = false → (∀ j < n, (s.msg.read (a + j)).isSome = true) →
        ∃ d : Word, hostAccess t s = .next { s with lastResponse := some (.read .okay d) } ∧
          ∀ j < 4, some (d.extractLsb' (8 * j) 8) = if j < n then s.msg.read (a + j) else some 0#8))

/-- Reading a byte of IMG or MSG that nothing has written since power-on is a fault, whether the host reads it or a command does;
after power-on no byte is written (20_memory.md section 4; 45_codec.md section 1). That ENCODE names its message byte even where an
image byte is unwritten too is the model's choice (log 15). -/
def Obligations.UnwrittenBytesFault : Prop :=
  (∀ (s : State) (t : Transaction) (a n : Nat), s.busy = false → t.write = false → t.bytes = some n →
    legalShape (regionOf s.params t.addr.toNat) t = true →
    (regionOf s.params t.addr.toNat = .img a → (∃ j < n, s.img.read (a + j) = none) →
      ∃ b, hostAccess t s = .fault (.unwrittenByte .img b) ∧ s.img.read b = none) ∧
    (regionOf s.params t.addr.toNat = .msg a → (∃ j < n, s.msg.read (a + j) = none) →
      ∃ b, hostAccess t s = .fault (.unwrittenByte .msg b) ∧ s.msg.read b = none)) ∧
  (∀ (s : State) (idx : Nat), tileCheck idx s = .noError → ¬ s.entryWritten idx →
    ∃ b, exec (.tileLoad idx) s = .fault (.unwrittenByte .img b) ∧ s.img.read b = none) ∧
  (∀ s : State, s.phase = .loop → s.msg.read (s.i / 8) = none →
    exec .encode s = .fault (.unwrittenByte .msg (s.i / 8))) ∧
  (∀ s : State, s.phase = .loop → (s.msg.read (s.i / 8)).isSome = true → ¬ s.entryWritten s.i →
    ∃ b, exec .encode s = .fault (.unwrittenByte .img b) ∧ s.img.read b = none) ∧
  (∀ s : State, s.phase = .loop → ¬ s.entryWritten s.i →
    ∃ b, exec .decode s = .fault (.unwrittenByte .img b) ∧ s.img.read b = none) ∧
  (∀ a, State.reset.img.read a = none ∧ State.reset.msg.read a = none)

/-! ### The Transform -/

/-- FDCT: COEF is the fixed-point DCT of BLK, SAT is set when a result is clipped, and nothing else changes but the completion
(41_transform.md section 3). -/
def Obligations.FdctTransformsBlkIntoCoef : Prop :=
  ∀ s : State, ∃ t : State, exec .fdct s = .next t ∧
    (∀ u v : Fin 8,
      (t.coef[blockIndex u v]).toInt =
        sat32 (rnd (Sc u v * ∑ y : Fin 8, Kc v y * rnd (∑ x : Fin 8, Kc u x * (s.blk[blockIndex x y]).toInt) 30) 60)) ∧
    (t.status.sat = true ↔ s.status.sat = true ∨ ∃ u v : Fin 8,
      let r := rnd (Sc u v * ∑ y : Fin 8, Kc v y * rnd (∑ x : Fin 8, Kc u x * (s.blk[blockIndex x y]).toInt) 30) 60
      r ≠ sat32 r) ∧
    t = { s.finished with coef := t.coef, status := { s.status with sat := t.status.sat } }

/-- IDCT: BLK is the fixed-point inverse DCT of COEF, SAT is set when a result is clipped, and nothing else changes but the
completion (41_transform.md section 3). -/
def Obligations.IdctTransformsCoefIntoBlk : Prop :=
  ∀ s : State, ∃ t : State, exec .idct s = .next t ∧
    (∀ x y : Fin 8,
      (t.blk[blockIndex x y]).toInt =
        sat32 (rnd (∑ v : Fin 8, Kc v y * rnd (∑ u : Fin 8, Kc u x * Sc u v * (s.coef[blockIndex u v]).toInt) 60) 30)) ∧
    (t.status.sat = true ↔ s.status.sat = true ∨ ∃ x y : Fin 8,
      let r := rnd (∑ v : Fin 8, Kc v y * rnd (∑ u : Fin 8, Kc u x * Sc u v * (s.coef[blockIndex u v]).toInt) 60) 30
      r ≠ sat32 r) ∧
    t = { s.finished with blk := t.blk, status := { s.status with sat := t.status.sat } }

/-- The DC path: FDCT of integer samples gives exactly their sum times 2^13 as COEF[0]; IDCT of a DC-only block gives `rnd(F, 3)`
in every word; with divisor 16 a dequantized DC-only block of q gives the uniform block 2q (41_transform.md R118). -/
def Obligations.TheDcPathIsExact : Prop :=
  (∀ p : Fin 64 → Byte,
    ((saturateBlock (fdctExact (Vector.ofFn fun k => sampleWord (p k))))[0]).toInt = (∑ k, ((p k).toNat : Int)) * 2 ^ 13) ∧
  (∀ dc : Block, (∀ k : Fin 64, k ≠ 0 → dc[k] = 0#32) → ∀ k : Fin 64,
    ((saturateBlock (idctExact dc))[k]).toInt = rnd (dc[0]).toInt 3) ∧
  (∀ (dc : Block) (q : Int), -2048 ≤ q → q ≤ 2048 → (∀ k : Fin 64, k ≠ 0 → dc[k] = 0#32) →
    (dc[0]).toInt = sat32 (q * 16 * 2 ^ 16) →
    ∀ k : Fin 64, ((saturateBlock (idctExact dc))[k]).toInt = 2 * q * 2 ^ 16)

/-- FDCT of tiled samples never saturates (41_transform.md R107). -/
def Obligations.FdctOfSamplesNeverSaturates : Prop :=
  ∀ p : Fin 64 → Byte, clips (fdctExact (Vector.ofFn fun k => sampleWord (p k))) = false

/-- Round trip of the Transform: a block whose words are at most 255 in magnitude comes back from FDCT and then IDCT within 8 units
of 2^-16 in every word, and nothing saturates; so with FDCT and IDCT between TILE_LOAD and TILE_STORE of one entry IMG is
unchanged and nothing is clamped (41_transform.md section 4, 43_tiler.md section 3). -/
def Obligations.FdctThenIdctReturnsTheBlock : Prop :=
  (∀ s : State, (∀ k : Fin 64, |(s.blk[k]).toInt| ≤ 255 * 2 ^ 16) →
    ∃ t u : State, exec .fdct s = .next t ∧ exec .idct t = .next u ∧
      (∀ k : Fin 64, |(u.blk[k]).toInt - (s.blk[k]).toInt| ≤ 8) ∧
      t.status.sat = s.status.sat ∧ u.status.sat = s.status.sat) ∧
  (∀ (s : State) (idx : Nat), s.img.wf → s.geometryOk → idx < s.height.toNat / 8 * (s.width.toNat / 8) * 3 →
    s.entryWritten idx →
    ∃ u : State, execAll [.tileLoad idx, .fdct, .idct, .tileStore idx] s = .next u ∧
      u.img = s.img ∧ u.clampCnt = s.clampCnt ∧ u.warnPending = s.warnPending)

/-! ### The Quantizer -/

/-- QUANT: each QBLK word is COEF divided by its divisor, to the nearest integer with ties away from zero, at most 32768 in
magnitude; nothing else changes but the completion (42_quantizer.md sections 1 and 3). -/
def Obligations.QuantRoundsToNearestTiesAway : Prop :=
  ∀ s : State, s.params.valid → ∃ t : State, exec .quant s = .next t ∧
    (∀ k : Fin 64,
      let c : Int := (s.coef[k]).toInt
      let d : Int := (s.params.qtab[k]).toNat * 2 ^ 16
      let q : Int := (t.qblk[k]).toInt
      q = rha c ((s.params.qtab[k]).toNat * 2 ^ 16) ∧
      2 * |c - q * d| ≤ d ∧ (2 * |c - q * d| = d → |c| < |q * d|) ∧ |q| ≤ 32768) ∧
    t = { s.finished with qblk := t.qblk }

/-- DEQUANT: each COEF word is QBLK times its divisor in Q15.16, saturated; SAT is set when a product is clipped; nothing else
changes but the completion (42_quantizer.md section 3). -/
def Obligations.DequantMultipliesAndSaturates : Prop :=
  ∀ s : State, ∃ t : State, exec .dequant s = .next t ∧
    (∀ k : Fin 64,
      (t.coef[k]).toInt = sat32 ((s.qblk[k]).toInt * (s.params.qtab[k]).toNat * 2 ^ 16)) ∧
    (t.status.sat = true ↔ s.status.sat = true ∨ ∃ k : Fin 64,
      (s.qblk[k]).toInt * (s.params.qtab[k]).toNat < -2 ^ 15 ∨ 2 ^ 15 ≤ (s.qblk[k]).toInt * (s.params.qtab[k]).toNat) ∧
    t = { s.finished with coef := t.coef, status := { s.status with sat := t.status.sat } }

/-- Quantized-domain idempotence: DEQUANT then QUANT returns every word whose product with its divisor is below 2^15 in
magnitude, and the whole buffer when all are (42_quantizer.md R125, its first sentence). -/
def Obligations.DequantThenQuantReturnsTheWord : Prop :=
  ∀ s : State, s.params.valid → ∃ t u : State, exec .dequant s = .next t ∧ exec .quant t = .next u ∧
    (∀ k : Fin 64, |(s.qblk[k]).toInt * (s.params.qtab[k]).toNat| < 2 ^ 15 → u.qblk[k] = s.qblk[k])

/-! ### The Tiler -/

/-- Sample addresses: the formula; distinct pairs give distinct addresses, all inside the image; the bytes reached are exactly
those of the tiled rows and columns (43_tiler.md R128). -/
def Obligations.SampleAddressesTileTheImage : Prop :=
  ∀ W H : Nat, 8 ≤ W → 8 ≤ H →
    (∀ i < H / 8 * (W / 8) * 3, ∀ k < 64,
      sampleAddr W i k =
        ((8 * (i / (3 * (W / 8))) + k / 8) * W + (8 * (i / 3 % (W / 8)) + k % 8)) * 3 + i % 3 ∧
      sampleAddr W i k < 8 * (H / 8) * W * 3 ∧ 8 * (H / 8) * W * 3 ≤ W * H * 3) ∧
    (∀ i < H / 8 * (W / 8) * 3, ∀ k < 64, ∀ i' < H / 8 * (W / 8) * 3, ∀ k' < 64,
      sampleAddr W i k = sampleAddr W i' k' → i = i' ∧ k = k') ∧
    (∀ y < H, ∀ x < W, ∀ c < 3,
      (∃ i < H / 8 * (W / 8) * 3, ∃ k < 64, sampleAddr W i k = 3 * (y * W + x) + c) ↔
        y < 8 * (H / 8) ∧ x < 8 * (W / 8))

/-- TILE_LOAD: with a geometry that fits, an index in range and the 64 bytes written, BLK takes the samples times 2^16 and nothing
else changes but the completion (43_tiler.md section 2). -/
def Obligations.TileLoadLoadsTheEntry : Prop :=
  ∀ (s : State) (idx : Nat), s.geometryOk → idx < s.height.toNat / 8 * (s.width.toNat / 8) * 3 → s.entryWritten idx →
    ∃ t : State, exec (.tileLoad idx) s = .next t ∧
      (∀ (k : Fin 64) (p : Byte), s.img.read (sampleAddr s.width.toNat idx k) = some p →
        (t.blk[k]).toInt = (p.toNat : Int) * 2 ^ 16) ∧
      (∀ a, t.img.read a = s.img.read a) ∧
      t = { s.finished with blk := t.blk }

/-- TILE_STORE: with a geometry that fits and an index in range, the 64 bytes of the entry take the converted samples and every
other byte keeps its value; CLAMP_CNT counts the clamped samples, saturating, and WARN is set when there is one; nothing else
changes but the completion (43_tiler.md section 2). -/
def Obligations.TileStoreStoresTheEntry : Prop :=
  ∀ (s : State) (idx : Nat), s.geometryOk → idx < s.height.toNat / 8 * (s.width.toNat / 8) * 3 →
    ∃ t : State, exec (.tileStore idx) s = .next t ∧
      (∀ k : Fin 64, t.img.read (sampleAddr s.width.toNat idx k) = some (toSample s.blk[k]).1) ∧
      (∀ a, (∀ k : Fin 64, a ≠ sampleAddr s.width.toNat idx k) → t.img.read a = s.img.read a) ∧
      t.clampCnt.toNat =
        min (s.clampCnt.toNat + (Finset.univ.filter fun k : Fin 64 => (toSample s.blk[k]).2 = true).card) (2 ^ 32 - 1) ∧
      (t.warnPending = true ↔ s.warnPending = true ∨ ∃ k : Fin 64, (toSample s.blk[k]).2 = true) ∧
      t.intStatus = { done := true, warn := s.intStatus.warn || t.warnPending, erri := s.intStatus.erri } ∧
      t = { s with img := t.img, clampCnt := t.clampCnt, warnPending := t.warnPending, phase := .idle, intStatus := t.intStatus }

/-- The checks of TILE_LOAD and TILE_STORE, in their order; a failed command writes nothing but STATUS and INT_STATUS
(60_exceptions.md sections 1, 43_tiler.md section 2). -/
def Obligations.TileCommandsCheckInOrder : Prop :=
  ∀ (s : State) (idx : Nat), ∀ c ∈ [Instr.tileLoad idx, Instr.tileStore idx],
    (s.width.toNat * s.height.toNat * 3 > s.params.imgBytes → exec c s = .next (s.failed .imageTooLarge)) ∧
    (s.width.toNat * s.height.toNat * 3 ≤ s.params.imgBytes → (s.width.toNat < 8 ∨ s.height.toNat < 8) →
      exec c s = .next (s.failed .imageTooSmall)) ∧
    (s.geometryOk → idx ≥ s.height.toNat / 8 * (s.width.toNat / 8) * 3 → exec c s = .next (s.failed .indexOutOfRange))

/-- Sample conversion: a word at or below -0.5 gives 0, clamped; at or above 255.5 gives 255, clamped; between them the nearest
integer, ties up, not clamped (43_tiler.md R131). -/
def Obligations.SamplesRoundThenClamp : Prop :=
  ∀ v : Word,
    (v.toInt ≤ -32768 → toSample v = (0#8, true)) ∧
    (-32768 < v.toInt → v.toInt < 255 * 65536 + 32768 →
      (toSample v).2 = false ∧ ((toSample v).1.toNat : Int) = (v.toInt + 32768) / 65536) ∧
    (255 * 65536 + 32768 ≤ v.toInt → toSample v = (255#8, true))

/-- Lossless tiling: TILE_LOAD then TILE_STORE of the same entry leaves IMG unchanged and clamps nothing (43_tiler.md R134, its first
sentence). -/
def Obligations.TileLoadThenTileStoreIsLossless : Prop :=
  ∀ (s : State) (idx : Nat), s.img.wf → s.geometryOk → idx < s.height.toNat / 8 * (s.width.toNat / 8) * 3 →
    s.entryWritten idx →
    ∃ t u : State, exec (.tileLoad idx) s = .next t ∧ exec (.tileStore idx) t = .next u ∧
      u.img = s.img ∧ u.clampCnt = s.clampCnt ∧ u.warnPending = s.warnPending

/-! ### The embedding rule -/

/-- EMBED b: QBLK[0] becomes `q - mod2(q) + b`, and nothing else changes but the completion (44_bitstream.md section 3). -/
def Obligations.EmbedForcesTheParityOfQblk0 : Prop :=
  ∀ (s : State) (b : Bool), ∃ t : State, exec (.embed b) s = .next t ∧
    (t.qblk[0]).toInt = (s.qblk[0]).toInt - (s.qblk[0]).toInt % 2 + (if b then 1 else 0) ∧
    (∀ k : Fin 64, k ≠ 0 → t.qblk[k] = s.qblk[k]) ∧
    t = { s.finished with qblk := t.qblk }

/-- EXTRACT: LASTBIT becomes `mod2(QBLK[0])`, and nothing else changes but the completion (44_bitstream.md section 3). -/
def Obligations.ExtractReadsTheParityOfQblk0 : Prop :=
  ∀ s : State, exec .extract s =
    .next { s.finished with status := { s.status with lastBit := decide ((s.qblk[0]).toInt % 2 = 1) } }

/-- The replacement rule on the word is `(q & ~1) | b`, which is `q - mod2(q) + b` on the integer and never overflows; extraction
is bit 0 of the word (44_bitstream.md R139, R140). -/
def Obligations.EmbeddingReplacesBitZero : Prop :=
  (∀ (q : Word) (b : Bool),
    embedBit q b = (q &&& ~~~1#32) ||| (BitVec.ofBool b).setWidth 32 ∧
    (embedBit q b).toInt = q.toInt - mod2 q.toInt + (if b then 1 else 0) ∧
    q.toInt - mod2 q.toInt ≤ 2 ^ 31 - 2 ∧ (q.toInt - mod2 q.toInt) % 2 = 0) ∧
  (∀ q : Word, (extractBit q = true ↔ mod2 q.toInt = 1) ∧ extractBit q = q.getLsbD 0) ∧
  extractBit (BitVec.ofInt 32 (-3)) = true ∧ extractBit (BitVec.ofInt 32 (-4)) = false

/-- Embedding the same bit twice is embedding it once, the bit is recovered, and the value changes by at most 1; so EMBED b twice
leaves QBLK[0] as one EMBED b does, and EMBED b then EXTRACT sets LASTBIT to b (44_bitstream.md R143). -/
def Obligations.EmbeddingIsIdempotentAndRecoverable : Prop :=
  (∀ (q : Word) (b : Bool),
    embedBit (embedBit q b) b = embedBit q b ∧ extractBit (embedBit q b) = b ∧ |(embedBit q b).toInt - q.toInt| ≤ 1) ∧
  (∀ (s : State) (b : Bool), ∃ t u v : State,
    exec (.embed b) s = .next t ∧ exec (.embed b) t = .next u ∧ u.qblk[0] = t.qblk[0] ∧
    exec .extract t = .next v ∧ v.status.lastBit = b)

/-- The payload bits are MSB-first: bit i is bit `7 - (i mod 8)` of `MSG[floor(i/8)]`; the byte 0x68 is 0,1,1,0,1,0,0,0
(44_bitstream.md R135). -/
def Obligations.PayloadBitsAreMsbFirst : Prop :=
  (∀ (m : Memory) (i : Nat) (byte : Byte), m.read (i / 8) = some byte →
    ∃ b, payloadBit m i = .ok b ∧ (b = true ↔ byte.toNat / 2 ^ (7 - i % 8) % 2 = 1) ∧ b = byte.getLsbD (7 - i % 8)) ∧
  (List.range 8).map (payloadBitOf 0x68#8) = [false, true, true, false, true, false, false, false]

/-! ### The Codec -/

/-- ENCODE's checks in their order, with the boundary at exactly the capacity, and its initialisation in the same step
(45_codec.md R147, R148). -/
def Obligations.EncodeChecksThenInitialises : Prop :=
  ∀ s : State, s.phase = .check →
    (s.width.toNat * s.height.toNat * 3 > s.params.imgBytes → exec .encode s = .next (s.failed .imageTooLarge)) ∧
    (s.width.toNat * s.height.toNat * 3 ≤ s.params.imgBytes →
      8 * s.encLen.toNat > s.height.toNat / 8 * (s.width.toNat / 8) * 3 → exec .encode s = .next (s.failed .capacityExceeded)) ∧
    (s.width.toNat * s.height.toNat * 3 ≤ s.params.imgBytes →
      8 * s.encLen.toNat ≤ s.height.toNat / 8 * (s.width.toNat / 8) * 3 → (s.width.toNat < 8 ∨ s.height.toNat < 8) →
      exec .encode s = .next (s.failed .imageTooSmall)) ∧
    (s.geometryOk → 8 * s.encLen.toNat ≤ s.height.toNat / 8 * (s.width.toNat / 8) * 3 → s.encLen.toNat ≠ 0 →
      exec .encode s =
        .next { s with clampCnt := 0#32, progress := 0#32, n := 8 * s.encLen.toNat, i := 0, phase := .loop }) ∧
    (s.geometryOk → s.encLen.toNat = 0 →
      exec .encode s =
        .next { s with clampCnt := 0#32, progress := 0#32, n := 0, i := 0 }.finished)

/-- ENCODE's step for entry i: with the message byte and the 64 image bytes written, the block goes through FDCT, QUANT, the
embedding of payload bit i, DEQUANT and IDCT, and its samples are stored; PROGRESS and i advance, and the last entry completes;
every other byte of IMG, and MSG, keep their values; STATUS is not touched, since nothing saturates (45_codec.md section 1;
41_transform.md section 2). -/
def Obligations.EncodeEmbedsOneEntryPerStep : Prop :=
  ∀ (s : State) (byte : Byte), s.phase = .loop → 8 ≤ s.width.toNat → s.msg.read (s.i / 8) = some byte → s.entryWritten s.i →
    ∃ t : State, exec .encode s = .next t ∧
      (let b := byte.getLsbD (7 - s.i % 8)
       let q := quantize s.params (saturateBlock (fdctExact (loadedBlock s.img s.width.toNat s.i)))
       t.qblk = q.set 0 (embedBit q[0] b) ∧
       t.coef = saturateBlock (dequantExact s.params t.qblk) ∧
       t.blk = saturateBlock (idctExact t.coef) ∧
       t.blk = stegoBlock s.params (loadedBlock s.img s.width.toNat s.i) b) ∧
      (∀ k : Fin 64, t.img.read (sampleAddr s.width.toNat s.i k) = some (toSample t.blk[k]).1) ∧
      (∀ a, (∀ k : Fin 64, a ≠ sampleAddr s.width.toNat s.i k) → t.img.read a = s.img.read a) ∧
      t.clampCnt.toNat =
        min (s.clampCnt.toNat + (Finset.univ.filter fun k : Fin 64 => (toSample t.blk[k]).2 = true).card) (2 ^ 32 - 1) ∧
      (t.warnPending = true ↔ s.warnPending = true ∨ ∃ k : Fin 64, (toSample t.blk[k]).2 = true) ∧
      (s.i + 1 = s.n → t.phase = .idle ∧
        t.intStatus = { done := true, warn := s.intStatus.warn || t.warnPending, erri := s.intStatus.erri }) ∧
      (s.i + 1 ≠ s.n → t.phase = .loop ∧ t.intStatus = s.intStatus) ∧
      t = { s with
        i := s.i + 1, progress := BitVec.ofNat 32 (s.i + 1), blk := t.blk, coef := t.coef, qblk := t.qblk, img := t.img,
        clampCnt := t.clampCnt, warnPending := t.warnPending, phase := t.phase, intStatus := t.intStatus }

/-- DECODE's checks in their order, with the boundary at exactly the capacity, and its initialisation in the same step
(45_codec.md R152, R154). -/
def Obligations.DecodeChecksThenInitialises : Prop :=
  ∀ s : State, s.phase = .check →
    (s.width.toNat * s.height.toNat * 3 > s.params.imgBytes → exec .decode s = .next (s.failed .imageTooLarge)) ∧
    (s.width.toNat * s.height.toNat * 3 ≤ s.params.imgBytes → (s.width.toNat < 8 ∨ s.height.toNat < 8) →
      exec .decode s = .next (s.failed .imageTooSmall)) ∧
    (s.geometryOk → s.decBits.toNat > s.height.toNat / 8 * (s.width.toNat / 8) * 3 →
      exec .decode s = .next (s.failed .truncatedPayload)) ∧
    (s.geometryOk → s.decBits.toNat ≤ s.height.toNat / 8 * (s.width.toNat / 8) * 3 → s.decBits.toNat ≠ 0 →
      exec .decode s =
        .next { s with progress := 0#32, acc := 0#8, n := s.decBits.toNat, i := 0, phase := .loop }) ∧
    (s.geometryOk → s.decBits.toNat = 0 →
      exec .decode s = .next { s with progress := 0#32, acc := 0#8, n := 0, i := 0 }.finished)

/-- DECODE's step for entry i: with the 64 image bytes written, LASTBIT is the parity of the quantized DC coefficient and goes into
the accumulator at weight `2^(7 - i mod 8)`; the message byte is written when it is complete or the bit is the last; IMG and
every other byte of MSG keep their values (45_codec.md section 2). -/
def Obligations.DecodeExtractsOneEntryPerStep : Prop :=
  ∀ s : State, s.phase = .loop → s.entryWritten s.i →
    ∃ t : State, exec .decode s = .next t ∧
      (let b := dcParity s.params s.img s.width.toNat s.i
       let acc := s.acc + BitVec.ofNat 8 ((if b then 1 else 0) * 2 ^ (7 - s.i % 8))
       t.status.lastBit = b ∧
       ((s.i % 8 = 7 ∨ s.i + 1 = s.n) →
         t.msg.read (s.i / 8) = some acc ∧ t.acc = 0#8 ∧ ∀ j, j ≠ s.i / 8 → t.msg.read j = s.msg.read j) ∧
       (¬ (s.i % 8 = 7 ∨ s.i + 1 = s.n) → t.acc = acc ∧ t.msg = s.msg)) ∧
      t.blk = loadedBlock s.img s.width.toNat s.i ∧
      t.coef = saturateBlock (fdctExact t.blk) ∧
      t.qblk = quantize s.params t.coef ∧
      (s.i + 1 = s.n → t.phase = .idle ∧
        t.intStatus = { done := true, warn := s.intStatus.warn || s.warnPending, erri := s.intStatus.erri }) ∧
      (s.i + 1 ≠ s.n → t.phase = .loop ∧ t.intStatus = s.intStatus) ∧
      t = { s with
        i := s.i + 1, progress := BitVec.ofNat 32 (s.i + 1), blk := t.blk, coef := t.coef, qblk := t.qblk, msg := t.msg,
        acc := t.acc, phase := t.phase, intStatus := t.intStatus, status := { s.status with lastBit := t.status.lastBit } }

/-- ENCODE's step for an entry gives the same IMG, buffers, CLAMP_CNT and SAT as the seven commands run one after the other
(70_reset_and_hazards.md section 3; that CLAMP_CNT, which may differ there, is the same from one start state follows from 45_codec.md
section 1 and 43_tiler.md section 2). -/
def Obligations.TheStageCommandsEqualOneEncodeStep : Prop :=
  ∀ (s : State) (byte : Byte), s.phase = .loop → s.geometryOk → s.i < s.capacity → s.msg.read (s.i / 8) = some byte →
    s.entryWritten s.i →
    ∃ t u : State, exec .encode s = .next t ∧
      execAll [.tileLoad s.i, .fdct, .quant, .embed (payloadBitOf byte s.i), .dequant, .idct, .tileStore s.i] s = .next u ∧
      t.img = u.img ∧ t.blk = u.blk ∧ t.coef = u.coef ∧ t.qblk = u.qblk ∧ t.clampCnt = u.clampCnt ∧
      t.status.sat = u.status.sat ∧ t.msg = u.msg

/-- Termination of ENCODE: an accepted ENCODE that passes its checks, with the message and the consumed entries written, completes
without an error after `1 + 8L` engine steps; PROGRESS is 8L, MSG is unchanged and so is every image byte outside the consumed
entries (40_command.md R98, 45_codec.md R149; stated for the run in which no host access comes between, log 6). -/
def Obligations.EncodeCompletesInOnePlusNSteps : Prop :=
  ∀ s : State, s.Inv → s.accepted .encode → encodeCheck s = .noError → s.messageWritten s.encLen.toNat →
    s.entriesWritten (8 * s.encLen.toNat) →
    ∃ t : State, Host.Core.run Sys2Proof.core (1 + 8 * s.encLen.toNat) s = .next t ∧
      t.phase = .idle ∧ t.status.err = false ∧ t.intStatus.done = true ∧ t.progress.toNat = 8 * s.encLen.toNat ∧
      t.msg = s.msg ∧
      (∀ a, (∀ i < 8 * s.encLen.toNat, a ∉ entryAddrs s.width.toNat i) → t.img.read a = s.img.read a)

/-- What DECODE computes: an accepted DECODE that passes its checks, with the read entries written, completes without an error
after `1 + N` engine steps; message byte j is made of the parities of the DC coefficients of the entries 8j to 8j+7, MSB first,
zero-padded after the N-th; the other message bytes and IMG are unchanged (44_bitstream.md R136, 45_codec.md R155; stated for
the run in which no host access comes between, log 6). -/
def Obligations.DecodeReturnsTheParitiesOfTheEntries : Prop :=
  ∀ s : State, s.Inv → s.accepted .decode → decodeCheck s = .noError → s.entriesWritten s.decBits.toNat →
    ∃ t : State, Host.Core.run Sys2Proof.core (1 + s.decBits.toNat) s = .next t ∧
      t.phase = .idle ∧ t.status.err = false ∧ t.intStatus.done = true ∧ t.progress.toNat = s.decBits.toNat ∧
      t.img = s.img ∧
      (∀ j < ceil8 s.decBits.toNat,
        t.msg.read j = some (assembledByte (dcParity s.params s.img s.width.toNat) s.decBits.toNat j)) ∧
      (∀ j, ceil8 s.decBits.toNat ≤ j → t.msg.read j = s.msg.read j)

/-- Decode of encode, for one block: if no sample of the stego block is clamped and the DC divisor is at least 9, the parity of the
quantized DC coefficient of the stored samples is the bit embedded (45_codec.md R157). -/
def Obligations.AnUnclampedBlockKeepsItsBit : Prop :=
  ∀ (p : Params) (x : Fin 64 → Byte) (b : Bool), 9 ≤ (p.qtab[0]).toNat →
    (∀ k : Fin 64, (toSample (stegoBlock p (Vector.ofFn fun k => sampleWord (x k)) b)[k]).2 = false) →
    extractBit
      (quantize p (saturateBlock (fdctExact (Vector.ofFn fun k : Fin 64 =>
        sampleWord (toSample (stegoBlock p (Vector.ofFn fun k => sampleWord (x k)) b)[k]).1))))[0] = b

/-- Decode of encode: if ENCODE of a message completes with CLAMP_CNT = 0 and the DC divisor is at least 9, DECODE of 8L bits of the
image it leaves, the geometry unchanged, returns the message (45_codec.md R157; stated for runs in which no host access comes
between the steps, log 6). -/
def Obligations.DecodeOfEncodeReturnsTheMessage : Prop :=
  ∀ s : State, s.Inv → s.accepted .encode → encodeCheck s = .noError → s.messageWritten s.encLen.toNat →
    s.entriesWritten (8 * s.encLen.toNat) → 9 ≤ (s.params.qtab[0]).toNat →
    ∃ t : State, Host.Core.run Sys2Proof.core (1 + 8 * s.encLen.toNat) s = .next t ∧
      (t.clampCnt = 0#32 →
        ∃ v : State, Host.Core.run Sys2Proof.core (1 + 8 * s.encLen.toNat)
            (accept 0x00000002#32 { t with decBits := BitVec.ofNat 32 (8 * s.encLen.toNat) }) = .next v ∧
          v.phase = .idle ∧ v.status.err = false ∧
          ∀ j < s.encLen.toNat, v.msg.read j = s.msg.read j)

/-! ### Frames over all commands -/

/-- Which registers a command step may change: none of the operand registers, the enables, OVR, the latched word, the parameters or
the environment, ever; each buffer, counter and flag only by the commands the spec names; SAT is never cleared (10_state.md sections
3 to 5; 41 to 44, the commands; 45_codec.md sections 1 and 2). That the hidden latched word, n, i, acc and warn_pending keep their
values after a command completes, where the spec gives them no meaning, is the model's choice (log 19). -/
def Obligations.CommandsChangeOnlyTheirRegisters : Prop :=
  ∀ (c : Instr) (s t : State), exec c s = .next t →
    (t.params = s.params ∧ t.width = s.width ∧ t.height = s.height ∧ t.encLen = s.encLen ∧ t.decBits = s.decBits ∧
     t.intEnable = s.intEnable ∧ t.latched = s.latched ∧ t.rstN = s.rstN ∧ t.lastResponse = s.lastResponse ∧
     t.host = s.host ∧ t.schedule = s.schedule ∧ t.freeCount = s.freeCount ∧ t.status.ovr = s.status.ovr) ∧
    (c ≠ .encode → c ≠ .decode → c ≠ .idct → (∀ idx, c ≠ .tileLoad idx) → t.blk = s.blk) ∧
    (c ≠ .encode → c ≠ .decode → c ≠ .fdct → c ≠ .dequant → t.coef = s.coef) ∧
    (c ≠ .encode → c ≠ .decode → c ≠ .quant → (∀ b, c ≠ .embed b) → t.qblk = s.qblk) ∧
    (c ≠ .encode → c ≠ .decode → t.progress = s.progress ∧ t.n = s.n ∧ t.i = s.i ∧ t.acc = s.acc) ∧
    (c ≠ .encode → (∀ idx, c ≠ .tileStore idx) → t.clampCnt = s.clampCnt ∧ t.warnPending = s.warnPending) ∧
    (c ≠ .decode → c ≠ .extract → t.status.lastBit = s.status.lastBit) ∧
    (s.status.sat = true → t.status.sat = true) ∧
    (c ≠ .encode → c ≠ .decode → c ≠ .fdct → c ≠ .idct → c ≠ .dequant → t.status.sat = s.status.sat)

/-- Which bytes a command step may change: of IMG only the 64 bytes of the entry that TILE_STORE names or that ENCODE processes, of
MSG only the byte DECODE completes, when it is due (20_memory.md R63, R71; 43_tiler.md R133; 45_codec.md R149, R155). -/
def Obligations.CommandsStoreOnlyTheirBytes : Prop :=
  ∀ (c : Instr) (s t : State), exec c s = .next t → ∀ a,
    (¬ ((∃ idx, c = .tileStore idx ∧ ∃ k : Fin 64, a = sampleAddr s.width.toNat idx k) ∨
        (c = .encode ∧ s.phase = .loop ∧ ∃ k : Fin 64, a = sampleAddr s.width.toNat s.i k)) →
      t.img.read a = s.img.read a) ∧
    (¬ (c = .decode ∧ s.phase = .loop ∧ (s.i % 8 = 7 ∨ s.i + 1 = s.n) ∧ a = s.i / 8) →
      t.msg.read a = s.msg.read a)

/-! ### Reset -/

/-- Reset during a command: the registers take their reset values and no event is set; a byte of IMG or MSG outside what the
abandoned command could have written keeps its value; a byte inside holds some value, which nothing constrains
(70_reset_and_hazards.md R179; that a command that would fail its checks could have written nothing is the model's reading,
log 11). -/
def Obligations.ResetAbandonsTheRunningCommand : Prop :=
  ∀ s : State,
    (let u := assertReset s
     u = { resetRegisters s with
       img := u.img, msg := u.msg, rstN := false, freeCount := u.freeCount, lastResponse := u.lastResponse,
       latched := u.latched, n := u.n, i := u.i, acc := u.acc, warnPending := u.warnPending }) ∧
    (assertReset s).phase = .idle ∧ (assertReset s).intStatus = Events.reset ∧
    (∀ a, (let written := s.phase ≠ .idle ∧
            ((decode s.latched = .ok .encode ∧ encodeCheck s = .noError ∧
                ∃ i < 8 * s.encLen.toNat, a ∈ entryAddrs s.width.toNat i) ∨
             (∃ idx, decode s.latched = .ok (.tileStore idx) ∧ tileCheck idx s = .noError ∧ a ∈ entryAddrs s.width.toNat idx))
           (¬ written → (assertReset s).img.read a = s.img.read a) ∧
           (written → ((assertReset s).img.read a).isSome = true))) ∧
    (∀ j, (let written := s.phase ≠ .idle ∧ decode s.latched = .ok .decode ∧ decodeCheck s = .noError ∧
             j < ceil8 s.decBits.toNat
           (¬ written → (assertReset s).msg.read j = s.msg.read j) ∧
           (written → ((assertReset s).msg.read j).isSome = true)))

/-- Reset without a running command does not change IMG or MSG; while `rst_n` is 0 every register has its reset value, the engine
takes no step and no host access is performed; when it returns to 1 the state is the one the reset left (70_reset_and_hazards.md
section 1). That a turn taken meanwhile is a step that changes nothing, and that the whole effect is in the turn that lowers `rst_n`,
are the model's readings (logs 7 and 13). -/
def Obligations.NothingMovesInReset : Prop :=
  ∀ s : State,
    (s.phase = .idle → (assertReset s).img = s.img ∧ (assertReset s).msg = s.msg) ∧
    (s.rstN = false → takeTurn .engine s = .next s ∧ takeTurn .host s = .next s) ∧
    (∃ t u : State, takeTurn .resetLow s = .next t ∧ t.rstN = false ∧ takeTurn .resetHigh t = .next u ∧
      u = { t with rstN := true } ∧
      u = { resetRegisters s with
        img := u.img, msg := u.msg, rstN := true, freeCount := u.freeCount, lastResponse := u.lastResponse,
        latched := u.latched, n := u.n, i := u.i, acc := u.acc, warnPending := u.warnPending })

/-! ### The invariant -/

/-- The invariant holds after reset, with the default parameters, which are the model's choice of an engine (logs 2 and 3)
(10_state.md R29, R51 to R53; 70_reset_and_hazards.md R175, R176). -/
def Obligations.ResetSatisfiesTheInvariant : Prop := State.reset.Inv

/-- Every step keeps the invariant: valid parameters, canonical memories that hold only bytes that exist, no error while BUSY, a
loop state that belongs to an ENCODE or DECODE that passed its checks, and reset values while `rst_n` is 0, where those of the
hidden state and of the bus answer are the model's choice (logs 4 and 9) (10_state.md R29, R44, R51 to R53; 20_memory.md R62,
R63, R71; 70_reset_and_hazards.md R178). -/
def Obligations.EveryStepKeepsTheInvariant : Prop :=
  ∀ s t : State, s.Inv → step s = .next t → t.Inv

/-- The engine faults only on a byte that nothing has written, and only on one inside the image or the message memory: no command
addresses beyond WIDTH*HEIGHT*3 or MSG_BYTES, and nothing else in a command can fail (20_memory.md R71, R84; 45_codec.md R146,
R153). -/
def Obligations.TheEngineFaultsOnlyOnUnwrittenBytes : Prop :=
  ∀ s : State, s.Inv →
    (∃ t, engineStep s = .next t) ∨
    (∃ a, engineStep s = .fault (.unwrittenByte .img a) ∧ s.img.read a = none ∧
      a < s.width.toNat * s.height.toNat * 3 ∧ a < s.params.imgBytes) ∨
    (∃ j, engineStep s = .fault (.unwrittenByte .msg j) ∧ s.msg.read j = none ∧ j < s.params.msgBytes)
end

