-- ==== Sys2Proof/Laws/Memory.lean ====
section
/-! SUPPORT. The byte memories: what a write changes and what it keeps, and the canonical form. -/

namespace Sys2Proof.Machine

@[simp] theorem Memory.read_nil (a : Nat) : Memory.read [] a = none := rfl

theorem Memory.read_cons (b : Nat) (v : Byte) (m : Memory) (a : Nat) :
    Memory.read ((b, v) :: m) a = if a = b then some v else Memory.read m a := rfl

/-- Reading the address just written gives the byte written. -/
@[simp] theorem Memory.read_write_self (m : Memory) (a : Nat) (v : Byte) : (m.write a v).read a = some v := by
  induction m with
  | nil => simp [Memory.write, Memory.read_cons]
  | cons c m ih =>
    obtain ⟨b, w⟩ := c
    unfold Memory.write
    split
    · simp [Memory.read_cons]
    · split
      · simp [Memory.read_cons]
      · rename_i h1 h2
        simp [Memory.read_cons, h2, ih]

/-- A write leaves every other address alone. -/
theorem Memory.read_write_of_ne (m : Memory) {a b : Nat} (v : Byte) (h : b ≠ a) : (m.write a v).read b = m.read b := by
  induction m with
  | nil => simp [Memory.write, Memory.read_cons, h]
  | cons c m ih =>
    obtain ⟨e, w⟩ := c
    unfold Memory.write
    split
    · simp [Memory.read_cons, h]
    · split
      · subst e; simp [Memory.read_cons, h]
      · simp only [Memory.read_cons, ih]

/-- A byte that has been written stays written. -/
theorem Memory.read_write_isSome {m : Memory} {b : Nat} (a : Nat) (v : Byte) (h : (m.read b).isSome = true) :
    ((m.write a v).read b).isSome = true := by
  by_cases hb : b = a
  · subst hb; simp
  · rwa [Memory.read_write_of_ne m v hb]

/-- The addresses of a memory after a write. -/
theorem Memory.mem_write {m : Memory} {a : Nat} {v : Byte} {c : Host.Cell} (h : c ∈ m.write a v) : c.1 = a ∨ c ∈ m := by
  induction m with
  | nil => left; simp [Memory.write] at h; simp [h]
  | cons d m ih =>
    obtain ⟨e, w⟩ := d
    unfold Memory.write at h
    split at h
    · rcases List.mem_cons.mp h with rfl | h
      · exact .inl rfl
      · exact .inr h
    · split at h
      · rcases List.mem_cons.mp h with rfl | h
        · exact .inl rfl
        · exact .inr (List.mem_cons_of_mem _ h)
      · rcases List.mem_cons.mp h with rfl | h
        · exact .inr List.mem_cons_self
        · exact (ih h).imp_right (List.mem_cons_of_mem _)

/-- A write keeps the canonical form. -/
theorem Memory.wf_write {m : Memory} (a : Nat) (v : Byte) (h : m.wf) : (m.write a v).wf := by
  induction m with
  | nil => simp [Memory.write, Memory.wf]
  | cons c m ih =>
    obtain ⟨b, w⟩ := c
    obtain ⟨h1, h2⟩ := List.pairwise_cons.mp h
    unfold Memory.write
    split
    · rename_i hab
      refine List.pairwise_cons.mpr ⟨fun x hx => ?_, h⟩
      rcases List.mem_cons.mp hx with rfl | hx
      · exact hab
      · exact Nat.lt_trans hab (h1 x hx)
    · split
      · rename_i _ hab
        subst hab
        exact List.pairwise_cons.mpr ⟨h1, h2⟩
      · refine List.pairwise_cons.mpr ⟨fun x hx => ?_, ih h2⟩
        rcases Memory.mem_write hx with hx | hx
        · simp only [hx]; omega
        · exact h1 x hx

/-- A write at an address that exists keeps the memory within its size. -/
theorem Memory.within_write {m : Memory} {a size : Nat} (v : Byte) (ha : a < size) (h : m.within size) :
    (m.write a v).within size := fun c hc => by
  rcases Memory.mem_write hc with hc | hc
  · omega
  · exact h c hc

theorem Memory.writeAll_append (m : Memory) (xs ys : List (Nat × Byte)) :
    m.writeAll (xs ++ ys) = (m.writeAll xs).writeAll ys := by
  induction xs generalizing m with
  | nil => rfl
  | cons x xs ih => exact ih _

/-- `writeAll` leaves every address it does not name alone. -/
theorem Memory.read_writeAll_of_notMem {xs : List (Nat × Byte)} {b : Nat} (m : Memory) (h : ∀ x ∈ xs, b ≠ x.1) :
    (m.writeAll xs).read b = m.read b := by
  induction xs generalizing m with
  | nil => rfl
  | cons x xs ih =>
    obtain ⟨a, v⟩ := x
    rw [Memory.writeAll, ih _ fun y hy => h y (List.mem_cons_of_mem _ hy),
      Memory.read_write_of_ne _ _ (h (a, v) List.mem_cons_self)]

/-- `writeAll` at distinct addresses: each address named holds its byte. -/
theorem Memory.read_writeAll_of_mem {xs : List (Nat × Byte)} (m : Memory) (hx : xs.Pairwise fun x y => x.1 ≠ y.1)
    {a : Nat} {v : Byte} (h : (a, v) ∈ xs) : (m.writeAll xs).read a = some v := by
  induction xs generalizing m with
  | nil => simp at h
  | cons x xs ih =>
    obtain ⟨b, w⟩ := x
    obtain ⟨h1, h2⟩ := List.pairwise_cons.mp hx
    rcases List.mem_cons.mp h with h | h
    · obtain ⟨rfl, rfl⟩ := Prod.mk.inj h
      rw [Memory.writeAll, Memory.read_writeAll_of_notMem _ fun y hy => h1 y hy, Memory.read_write_self]
    · exact ih _ h2 h

/-- A byte that has been written stays written. -/
theorem Memory.read_writeAll_isSome {m : Memory} {b : Nat} (xs : List (Nat × Byte)) (h : (m.read b).isSome = true) :
    ((m.writeAll xs).read b).isSome = true := by
  induction xs generalizing m with
  | nil => exact h
  | cons x xs ih => exact ih (Memory.read_write_isSome _ _ h)

/-- Every address that `writeAll` names is written. -/
theorem Memory.read_writeAll_isSome_of_mem {xs : List (Nat × Byte)} (m : Memory) {x : Nat × Byte} (h : x ∈ xs) :
    ((m.writeAll xs).read x.1).isSome = true := by
  induction xs generalizing m with
  | nil => simp at h
  | cons y ys ih =>
    rcases List.mem_cons.mp h with rfl | h
    · exact Memory.read_writeAll_isSome ys (by simp)
    · exact ih _ h

/-- `writeAll` keeps the canonical form. -/
theorem Memory.wf_writeAll {m : Memory} (xs : List (Nat × Byte)) (h : m.wf) : (m.writeAll xs).wf := by
  induction xs generalizing m with
  | nil => exact h
  | cons x xs ih => exact ih (Memory.wf_write _ _ h)

/-- `writeAll` at addresses that exist keeps the memory within its size. -/
theorem Memory.within_writeAll {m : Memory} {size : Nat} {xs : List (Nat × Byte)} (hx : ∀ x ∈ xs, x.1 < size)
    (h : m.within size) : (m.writeAll xs).within size := by
  induction xs generalizing m with
  | nil => exact h
  | cons x xs ih =>
    exact ih (fun y hy => hx y (List.mem_cons_of_mem _ hy)) (Memory.within_write _ (hx x List.mem_cons_self) h)

/-- A listed byte is at an address that exists. -/
theorem Memory.lt_of_read_isSome {m : Memory} {a size : Nat} (hm : m.within size) (h : (m.read a).isSome = true) : a < size := by
  induction m with
  | nil => simp at h
  | cons c m ih =>
    obtain ⟨b, w⟩ := c
    rw [Memory.read_cons] at h
    split at h
    · rename_i hab
      rw [hab]
      exact hm (b, w) List.mem_cons_self
    · exact ih (fun c hc => hm c (List.mem_cons_of_mem _ hc)) h

/-- Two memories in canonical form that read alike are the same data. -/
theorem Memory.ext_of_wf {m m' : Memory} (h : m.wf) (h' : m'.wf) (hr : ∀ a, m.read a = m'.read a) : m = m' := by
  have none_of_lt : ∀ {l : Memory} {a : Nat}, (∀ c ∈ l, a < c.1) → l.read a = none := by
    intro l a hl
    induction l with
    | nil => rfl
    | cons c l ih =>
      obtain ⟨b, w⟩ := c
      have hb := hl (b, w) List.mem_cons_self
      rw [Memory.read_cons, if_neg (by simp at hb; omega)]
      exact ih fun c hc => hl c (List.mem_cons_of_mem _ hc)
  induction m generalizing m' with
  | nil =>
    cases m' with
    | nil => rfl
    | cons c m' => obtain ⟨b, w⟩ := c; have := hr b; simp [Memory.read_cons] at this
  | cons c m ih =>
    cases m' with
    | nil => obtain ⟨b, w⟩ := c; have := hr b; simp [Memory.read_cons] at this
    | cons c' m' =>
      obtain ⟨b, w⟩ := c
      obtain ⟨b', w'⟩ := c'
      obtain ⟨h1, h2⟩ := List.pairwise_cons.mp h
      obtain ⟨h1', h2'⟩ := List.pairwise_cons.mp h'
      have hbb : b = b' := by
        rcases Nat.lt_trichotomy b b' with hlt | heq | hgt
        · have := hr b
          rw [Memory.read_cons, if_pos rfl, Memory.read_cons, if_neg (by omega),
            none_of_lt fun c hc => Nat.lt_trans hlt (h1' c hc)] at this
          simp at this
        · exact heq
        · have := hr b'
          rw [Memory.read_cons, if_neg (by omega), none_of_lt fun c hc => Nat.lt_trans hgt (h1 c hc),
            Memory.read_cons, if_pos rfl] at this
          simp at this
      subst hbb
      have hw : w = w' := by have := hr b; simpa [Memory.read_cons] using this
      subst hw
      rw [ih h2 h2' fun a => ?_]
      by_cases ha : a = b
      · subst ha
        rw [none_of_lt fun c hc => h1 c hc, none_of_lt fun c hc => h1' c hc]
      · have := hr a
        rwa [Memory.read_cons, if_neg ha, Memory.read_cons, if_neg ha] at this

/-- There is no first unwritten address exactly when every address is written. -/
theorem Memory.firstUnwritten_eq_none_iff (m : Memory) (addrs : List Nat) :
    m.firstUnwritten addrs = none ↔ ∀ a ∈ addrs, (m.read a).isSome = true := by
  simp only [Memory.firstUnwritten, List.find?_eq_none]
  refine forall₂_congr fun a _ => ?_
  cases m.read a <;> simp

/-- The first unwritten address is one of them, and nothing has written it. -/
theorem Memory.of_firstUnwritten {m : Memory} {addrs : List Nat} {a : Nat} (h : m.firstUnwritten addrs = some a) :
    a ∈ addrs ∧ m.read a = none := by
  refine ⟨List.mem_of_find?_eq_some h, ?_⟩
  have := List.find?_some h
  simpa using this

end Sys2Proof.Machine
end

