-- ==== Sys2Proof/Laws/State.lean ====
section
/-! SUPPORT. One lemma per field per update of State, so that no later proof unfolds a record update. -/

namespace Sys2Proof.Machine

/-! ### Acceptance (40_command.md R93) -/

@[simp] theorem accept_params (w : Word) (s : State) : (accept w s).params = s.params := rfl
@[simp] theorem accept_status (w : Word) (s : State) : (accept w s).status = { s.status with err := false, errCode := .noError } := rfl
@[simp] theorem accept_intStatus (w : Word) (s : State) : (accept w s).intStatus = s.intStatus := rfl
@[simp] theorem accept_intEnable (w : Word) (s : State) : (accept w s).intEnable = s.intEnable := rfl
@[simp] theorem accept_width (w : Word) (s : State) : (accept w s).width = s.width := rfl
@[simp] theorem accept_height (w : Word) (s : State) : (accept w s).height = s.height := rfl
@[simp] theorem accept_encLen (w : Word) (s : State) : (accept w s).encLen = s.encLen := rfl
@[simp] theorem accept_decBits (w : Word) (s : State) : (accept w s).decBits = s.decBits := rfl
@[simp] theorem accept_progress (w : Word) (s : State) : (accept w s).progress = s.progress := rfl
@[simp] theorem accept_clampCnt (w : Word) (s : State) : (accept w s).clampCnt = s.clampCnt := rfl
@[simp] theorem accept_blk (w : Word) (s : State) : (accept w s).blk = s.blk := rfl
@[simp] theorem accept_coef (w : Word) (s : State) : (accept w s).coef = s.coef := rfl
@[simp] theorem accept_qblk (w : Word) (s : State) : (accept w s).qblk = s.qblk := rfl
@[simp] theorem accept_phase (w : Word) (s : State) : (accept w s).phase = .check := rfl
@[simp] theorem accept_latched (w : Word) (s : State) : (accept w s).latched = w := rfl
@[simp] theorem accept_n (w : Word) (s : State) : (accept w s).n = s.n := rfl
@[simp] theorem accept_i (w : Word) (s : State) : (accept w s).i = s.i := rfl
@[simp] theorem accept_acc (w : Word) (s : State) : (accept w s).acc = s.acc := rfl
@[simp] theorem accept_warnPending (w : Word) (s : State) : (accept w s).warnPending = false := rfl
@[simp] theorem accept_img (w : Word) (s : State) : (accept w s).img = s.img := rfl
@[simp] theorem accept_msg (w : Word) (s : State) : (accept w s).msg = s.msg := rfl
@[simp] theorem accept_rstN (w : Word) (s : State) : (accept w s).rstN = s.rstN := rfl
@[simp] theorem accept_lastResponse (w : Word) (s : State) : (accept w s).lastResponse = s.lastResponse := rfl
@[simp] theorem accept_host (w : Word) (s : State) : (accept w s).host = s.host := rfl
@[simp] theorem accept_schedule (w : Word) (s : State) : (accept w s).schedule = s.schedule := rfl
@[simp] theorem accept_freeCount (w : Word) (s : State) : (accept w s).freeCount = s.freeCount := rfl

/-! ### Completion (40_command.md R95) -/

@[simp] theorem complete_params (e : ErrorCode) (s : State) : (complete e s).params = s.params := rfl
@[simp] theorem complete_status (e : ErrorCode) (s : State) : (complete e s).status = if e = .noError then s.status else { s.status with err := true, errCode := e } := rfl
@[simp] theorem complete_intStatus (e : ErrorCode) (s : State) : (complete e s).intStatus = { done := true, warn := s.intStatus.warn || s.warnPending, erri := s.intStatus.erri || e != .noError } := rfl
@[simp] theorem complete_intEnable (e : ErrorCode) (s : State) : (complete e s).intEnable = s.intEnable := rfl
@[simp] theorem complete_width (e : ErrorCode) (s : State) : (complete e s).width = s.width := rfl
@[simp] theorem complete_height (e : ErrorCode) (s : State) : (complete e s).height = s.height := rfl
@[simp] theorem complete_encLen (e : ErrorCode) (s : State) : (complete e s).encLen = s.encLen := rfl
@[simp] theorem complete_decBits (e : ErrorCode) (s : State) : (complete e s).decBits = s.decBits := rfl
@[simp] theorem complete_progress (e : ErrorCode) (s : State) : (complete e s).progress = s.progress := rfl
@[simp] theorem complete_clampCnt (e : ErrorCode) (s : State) : (complete e s).clampCnt = s.clampCnt := rfl
@[simp] theorem complete_blk (e : ErrorCode) (s : State) : (complete e s).blk = s.blk := rfl
@[simp] theorem complete_coef (e : ErrorCode) (s : State) : (complete e s).coef = s.coef := rfl
@[simp] theorem complete_qblk (e : ErrorCode) (s : State) : (complete e s).qblk = s.qblk := rfl
@[simp] theorem complete_phase (e : ErrorCode) (s : State) : (complete e s).phase = .idle := rfl
@[simp] theorem complete_latched (e : ErrorCode) (s : State) : (complete e s).latched = s.latched := rfl
@[simp] theorem complete_n (e : ErrorCode) (s : State) : (complete e s).n = s.n := rfl
@[simp] theorem complete_i (e : ErrorCode) (s : State) : (complete e s).i = s.i := rfl
@[simp] theorem complete_acc (e : ErrorCode) (s : State) : (complete e s).acc = s.acc := rfl
@[simp] theorem complete_warnPending (e : ErrorCode) (s : State) : (complete e s).warnPending = s.warnPending := rfl
@[simp] theorem complete_img (e : ErrorCode) (s : State) : (complete e s).img = s.img := rfl
@[simp] theorem complete_msg (e : ErrorCode) (s : State) : (complete e s).msg = s.msg := rfl
@[simp] theorem complete_rstN (e : ErrorCode) (s : State) : (complete e s).rstN = s.rstN := rfl
@[simp] theorem complete_lastResponse (e : ErrorCode) (s : State) : (complete e s).lastResponse = s.lastResponse := rfl
@[simp] theorem complete_host (e : ErrorCode) (s : State) : (complete e s).host = s.host := rfl
@[simp] theorem complete_schedule (e : ErrorCode) (s : State) : (complete e s).schedule = s.schedule := rfl
@[simp] theorem complete_freeCount (e : ErrorCode) (s : State) : (complete e s).freeCount = s.freeCount := rfl

/-! ### SAT (10_state.md R30) -/

@[simp] theorem satEvent_params (c : Bool) (s : State) : (satEvent c s).params = s.params := rfl
@[simp] theorem satEvent_status (c : Bool) (s : State) : (satEvent c s).status = { s.status with sat := s.status.sat || c } := rfl
@[simp] theorem satEvent_intStatus (c : Bool) (s : State) : (satEvent c s).intStatus = s.intStatus := rfl
@[simp] theorem satEvent_intEnable (c : Bool) (s : State) : (satEvent c s).intEnable = s.intEnable := rfl
@[simp] theorem satEvent_width (c : Bool) (s : State) : (satEvent c s).width = s.width := rfl
@[simp] theorem satEvent_height (c : Bool) (s : State) : (satEvent c s).height = s.height := rfl
@[simp] theorem satEvent_encLen (c : Bool) (s : State) : (satEvent c s).encLen = s.encLen := rfl
@[simp] theorem satEvent_decBits (c : Bool) (s : State) : (satEvent c s).decBits = s.decBits := rfl
@[simp] theorem satEvent_progress (c : Bool) (s : State) : (satEvent c s).progress = s.progress := rfl
@[simp] theorem satEvent_clampCnt (c : Bool) (s : State) : (satEvent c s).clampCnt = s.clampCnt := rfl
@[simp] theorem satEvent_blk (c : Bool) (s : State) : (satEvent c s).blk = s.blk := rfl
@[simp] theorem satEvent_coef (c : Bool) (s : State) : (satEvent c s).coef = s.coef := rfl
@[simp] theorem satEvent_qblk (c : Bool) (s : State) : (satEvent c s).qblk = s.qblk := rfl
@[simp] theorem satEvent_phase (c : Bool) (s : State) : (satEvent c s).phase = s.phase := rfl
@[simp] theorem satEvent_latched (c : Bool) (s : State) : (satEvent c s).latched = s.latched := rfl
@[simp] theorem satEvent_n (c : Bool) (s : State) : (satEvent c s).n = s.n := rfl
@[simp] theorem satEvent_i (c : Bool) (s : State) : (satEvent c s).i = s.i := rfl
@[simp] theorem satEvent_acc (c : Bool) (s : State) : (satEvent c s).acc = s.acc := rfl
@[simp] theorem satEvent_warnPending (c : Bool) (s : State) : (satEvent c s).warnPending = s.warnPending := rfl
@[simp] theorem satEvent_img (c : Bool) (s : State) : (satEvent c s).img = s.img := rfl
@[simp] theorem satEvent_msg (c : Bool) (s : State) : (satEvent c s).msg = s.msg := rfl
@[simp] theorem satEvent_rstN (c : Bool) (s : State) : (satEvent c s).rstN = s.rstN := rfl
@[simp] theorem satEvent_lastResponse (c : Bool) (s : State) : (satEvent c s).lastResponse = s.lastResponse := rfl
@[simp] theorem satEvent_host (c : Bool) (s : State) : (satEvent c s).host = s.host := rfl
@[simp] theorem satEvent_schedule (c : Bool) (s : State) : (satEvent c s).schedule = s.schedule := rfl
@[simp] theorem satEvent_freeCount (c : Bool) (s : State) : (satEvent c s).freeCount = s.freeCount := rfl

/-! ### LASTBIT (10_state.md R32) -/

@[simp] theorem setLastBit_params (b : Bool) (s : State) : (setLastBit b s).params = s.params := rfl
@[simp] theorem setLastBit_status (b : Bool) (s : State) : (setLastBit b s).status = { s.status with lastBit := b } := rfl
@[simp] theorem setLastBit_intStatus (b : Bool) (s : State) : (setLastBit b s).intStatus = s.intStatus := rfl
@[simp] theorem setLastBit_intEnable (b : Bool) (s : State) : (setLastBit b s).intEnable = s.intEnable := rfl
@[simp] theorem setLastBit_width (b : Bool) (s : State) : (setLastBit b s).width = s.width := rfl
@[simp] theorem setLastBit_height (b : Bool) (s : State) : (setLastBit b s).height = s.height := rfl
@[simp] theorem setLastBit_encLen (b : Bool) (s : State) : (setLastBit b s).encLen = s.encLen := rfl
@[simp] theorem setLastBit_decBits (b : Bool) (s : State) : (setLastBit b s).decBits = s.decBits := rfl
@[simp] theorem setLastBit_progress (b : Bool) (s : State) : (setLastBit b s).progress = s.progress := rfl
@[simp] theorem setLastBit_clampCnt (b : Bool) (s : State) : (setLastBit b s).clampCnt = s.clampCnt := rfl
@[simp] theorem setLastBit_blk (b : Bool) (s : State) : (setLastBit b s).blk = s.blk := rfl
@[simp] theorem setLastBit_coef (b : Bool) (s : State) : (setLastBit b s).coef = s.coef := rfl
@[simp] theorem setLastBit_qblk (b : Bool) (s : State) : (setLastBit b s).qblk = s.qblk := rfl
@[simp] theorem setLastBit_phase (b : Bool) (s : State) : (setLastBit b s).phase = s.phase := rfl
@[simp] theorem setLastBit_latched (b : Bool) (s : State) : (setLastBit b s).latched = s.latched := rfl
@[simp] theorem setLastBit_n (b : Bool) (s : State) : (setLastBit b s).n = s.n := rfl
@[simp] theorem setLastBit_i (b : Bool) (s : State) : (setLastBit b s).i = s.i := rfl
@[simp] theorem setLastBit_acc (b : Bool) (s : State) : (setLastBit b s).acc = s.acc := rfl
@[simp] theorem setLastBit_warnPending (b : Bool) (s : State) : (setLastBit b s).warnPending = s.warnPending := rfl
@[simp] theorem setLastBit_img (b : Bool) (s : State) : (setLastBit b s).img = s.img := rfl
@[simp] theorem setLastBit_msg (b : Bool) (s : State) : (setLastBit b s).msg = s.msg := rfl
@[simp] theorem setLastBit_rstN (b : Bool) (s : State) : (setLastBit b s).rstN = s.rstN := rfl
@[simp] theorem setLastBit_lastResponse (b : Bool) (s : State) : (setLastBit b s).lastResponse = s.lastResponse := rfl
@[simp] theorem setLastBit_host (b : Bool) (s : State) : (setLastBit b s).host = s.host := rfl
@[simp] theorem setLastBit_schedule (b : Bool) (s : State) : (setLastBit b s).schedule = s.schedule := rfl
@[simp] theorem setLastBit_freeCount (b : Bool) (s : State) : (setLastBit b s).freeCount = s.freeCount := rfl

/-! ### OVR (10_state.md R31) -/

@[simp] theorem setOvr_params (s : State) : (setOvr s).params = s.params := rfl
@[simp] theorem setOvr_status (s : State) : (setOvr s).status = { s.status with ovr := true } := rfl
@[simp] theorem setOvr_intStatus (s : State) : (setOvr s).intStatus = s.intStatus := rfl
@[simp] theorem setOvr_intEnable (s : State) : (setOvr s).intEnable = s.intEnable := rfl
@[simp] theorem setOvr_width (s : State) : (setOvr s).width = s.width := rfl
@[simp] theorem setOvr_height (s : State) : (setOvr s).height = s.height := rfl
@[simp] theorem setOvr_encLen (s : State) : (setOvr s).encLen = s.encLen := rfl
@[simp] theorem setOvr_decBits (s : State) : (setOvr s).decBits = s.decBits := rfl
@[simp] theorem setOvr_progress (s : State) : (setOvr s).progress = s.progress := rfl
@[simp] theorem setOvr_clampCnt (s : State) : (setOvr s).clampCnt = s.clampCnt := rfl
@[simp] theorem setOvr_blk (s : State) : (setOvr s).blk = s.blk := rfl
@[simp] theorem setOvr_coef (s : State) : (setOvr s).coef = s.coef := rfl
@[simp] theorem setOvr_qblk (s : State) : (setOvr s).qblk = s.qblk := rfl
@[simp] theorem setOvr_phase (s : State) : (setOvr s).phase = s.phase := rfl
@[simp] theorem setOvr_latched (s : State) : (setOvr s).latched = s.latched := rfl
@[simp] theorem setOvr_n (s : State) : (setOvr s).n = s.n := rfl
@[simp] theorem setOvr_i (s : State) : (setOvr s).i = s.i := rfl
@[simp] theorem setOvr_acc (s : State) : (setOvr s).acc = s.acc := rfl
@[simp] theorem setOvr_warnPending (s : State) : (setOvr s).warnPending = s.warnPending := rfl
@[simp] theorem setOvr_img (s : State) : (setOvr s).img = s.img := rfl
@[simp] theorem setOvr_msg (s : State) : (setOvr s).msg = s.msg := rfl
@[simp] theorem setOvr_rstN (s : State) : (setOvr s).rstN = s.rstN := rfl
@[simp] theorem setOvr_lastResponse (s : State) : (setOvr s).lastResponse = s.lastResponse := rfl
@[simp] theorem setOvr_host (s : State) : (setOvr s).host = s.host := rfl
@[simp] theorem setOvr_schedule (s : State) : (setOvr s).schedule = s.schedule := rfl
@[simp] theorem setOvr_freeCount (s : State) : (setOvr s).freeCount = s.freeCount := rfl

/-! ### The clamp count (43_tiler.md R132) -/

@[simp] theorem countClamps_params (c : Nat) (s : State) : (countClamps c s).params = s.params := by unfold countClamps; split <;> rfl
@[simp] theorem countClamps_status (c : Nat) (s : State) : (countClamps c s).status = s.status := by unfold countClamps; split <;> rfl
@[simp] theorem countClamps_intStatus (c : Nat) (s : State) : (countClamps c s).intStatus = s.intStatus := by unfold countClamps; split <;> rfl
@[simp] theorem countClamps_intEnable (c : Nat) (s : State) : (countClamps c s).intEnable = s.intEnable := by unfold countClamps; split <;> rfl
@[simp] theorem countClamps_width (c : Nat) (s : State) : (countClamps c s).width = s.width := by unfold countClamps; split <;> rfl
@[simp] theorem countClamps_height (c : Nat) (s : State) : (countClamps c s).height = s.height := by unfold countClamps; split <;> rfl
@[simp] theorem countClamps_encLen (c : Nat) (s : State) : (countClamps c s).encLen = s.encLen := by unfold countClamps; split <;> rfl
@[simp] theorem countClamps_decBits (c : Nat) (s : State) : (countClamps c s).decBits = s.decBits := by unfold countClamps; split <;> rfl
@[simp] theorem countClamps_progress (c : Nat) (s : State) : (countClamps c s).progress = s.progress := by unfold countClamps; split <;> rfl
@[simp] theorem countClamps_blk (c : Nat) (s : State) : (countClamps c s).blk = s.blk := by unfold countClamps; split <;> rfl
@[simp] theorem countClamps_coef (c : Nat) (s : State) : (countClamps c s).coef = s.coef := by unfold countClamps; split <;> rfl
@[simp] theorem countClamps_qblk (c : Nat) (s : State) : (countClamps c s).qblk = s.qblk := by unfold countClamps; split <;> rfl
@[simp] theorem countClamps_phase (c : Nat) (s : State) : (countClamps c s).phase = s.phase := by unfold countClamps; split <;> rfl
@[simp] theorem countClamps_latched (c : Nat) (s : State) : (countClamps c s).latched = s.latched := by unfold countClamps; split <;> rfl
@[simp] theorem countClamps_n (c : Nat) (s : State) : (countClamps c s).n = s.n := by unfold countClamps; split <;> rfl
@[simp] theorem countClamps_i (c : Nat) (s : State) : (countClamps c s).i = s.i := by unfold countClamps; split <;> rfl
@[simp] theorem countClamps_acc (c : Nat) (s : State) : (countClamps c s).acc = s.acc := by unfold countClamps; split <;> rfl
@[simp] theorem countClamps_img (c : Nat) (s : State) : (countClamps c s).img = s.img := by unfold countClamps; split <;> rfl
@[simp] theorem countClamps_msg (c : Nat) (s : State) : (countClamps c s).msg = s.msg := by unfold countClamps; split <;> rfl
@[simp] theorem countClamps_rstN (c : Nat) (s : State) : (countClamps c s).rstN = s.rstN := by unfold countClamps; split <;> rfl
@[simp] theorem countClamps_lastResponse (c : Nat) (s : State) : (countClamps c s).lastResponse = s.lastResponse := by unfold countClamps; split <;> rfl
@[simp] theorem countClamps_host (c : Nat) (s : State) : (countClamps c s).host = s.host := by unfold countClamps; split <;> rfl
@[simp] theorem countClamps_schedule (c : Nat) (s : State) : (countClamps c s).schedule = s.schedule := by unfold countClamps; split <;> rfl
@[simp] theorem countClamps_freeCount (c : Nat) (s : State) : (countClamps c s).freeCount = s.freeCount := by unfold countClamps; split <;> rfl

/-! ### The body of FDCT (41_transform.md R113) -/

@[simp] theorem fdctBody_params (s : State) : (fdctBody s).params = s.params := by simp [fdctBody]
@[simp] theorem fdctBody_status (s : State) : (fdctBody s).status = { s.status with sat := s.status.sat || clips (fdctExact s.blk) } := by simp [fdctBody]
@[simp] theorem fdctBody_intStatus (s : State) : (fdctBody s).intStatus = s.intStatus := by simp [fdctBody]
@[simp] theorem fdctBody_intEnable (s : State) : (fdctBody s).intEnable = s.intEnable := by simp [fdctBody]
@[simp] theorem fdctBody_width (s : State) : (fdctBody s).width = s.width := by simp [fdctBody]
@[simp] theorem fdctBody_height (s : State) : (fdctBody s).height = s.height := by simp [fdctBody]
@[simp] theorem fdctBody_encLen (s : State) : (fdctBody s).encLen = s.encLen := by simp [fdctBody]
@[simp] theorem fdctBody_decBits (s : State) : (fdctBody s).decBits = s.decBits := by simp [fdctBody]
@[simp] theorem fdctBody_progress (s : State) : (fdctBody s).progress = s.progress := by simp [fdctBody]
@[simp] theorem fdctBody_clampCnt (s : State) : (fdctBody s).clampCnt = s.clampCnt := by simp [fdctBody]
@[simp] theorem fdctBody_blk (s : State) : (fdctBody s).blk = s.blk := by simp [fdctBody]
@[simp] theorem fdctBody_coef (s : State) : (fdctBody s).coef = saturateBlock (fdctExact s.blk) := by simp [fdctBody]
@[simp] theorem fdctBody_qblk (s : State) : (fdctBody s).qblk = s.qblk := by simp [fdctBody]
@[simp] theorem fdctBody_phase (s : State) : (fdctBody s).phase = s.phase := by simp [fdctBody]
@[simp] theorem fdctBody_latched (s : State) : (fdctBody s).latched = s.latched := by simp [fdctBody]
@[simp] theorem fdctBody_n (s : State) : (fdctBody s).n = s.n := by simp [fdctBody]
@[simp] theorem fdctBody_i (s : State) : (fdctBody s).i = s.i := by simp [fdctBody]
@[simp] theorem fdctBody_acc (s : State) : (fdctBody s).acc = s.acc := by simp [fdctBody]
@[simp] theorem fdctBody_warnPending (s : State) : (fdctBody s).warnPending = s.warnPending := by simp [fdctBody]
@[simp] theorem fdctBody_img (s : State) : (fdctBody s).img = s.img := by simp [fdctBody]
@[simp] theorem fdctBody_msg (s : State) : (fdctBody s).msg = s.msg := by simp [fdctBody]
@[simp] theorem fdctBody_rstN (s : State) : (fdctBody s).rstN = s.rstN := by simp [fdctBody]
@[simp] theorem fdctBody_lastResponse (s : State) : (fdctBody s).lastResponse = s.lastResponse := by simp [fdctBody]
@[simp] theorem fdctBody_host (s : State) : (fdctBody s).host = s.host := by simp [fdctBody]
@[simp] theorem fdctBody_schedule (s : State) : (fdctBody s).schedule = s.schedule := by simp [fdctBody]
@[simp] theorem fdctBody_freeCount (s : State) : (fdctBody s).freeCount = s.freeCount := by simp [fdctBody]

/-! ### The body of IDCT (41_transform.md R114) -/

@[simp] theorem idctBody_params (s : State) : (idctBody s).params = s.params := by simp [idctBody]
@[simp] theorem idctBody_status (s : State) : (idctBody s).status = { s.status with sat := s.status.sat || clips (idctExact s.coef) } := by simp [idctBody]
@[simp] theorem idctBody_intStatus (s : State) : (idctBody s).intStatus = s.intStatus := by simp [idctBody]
@[simp] theorem idctBody_intEnable (s : State) : (idctBody s).intEnable = s.intEnable := by simp [idctBody]
@[simp] theorem idctBody_width (s : State) : (idctBody s).width = s.width := by simp [idctBody]
@[simp] theorem idctBody_height (s : State) : (idctBody s).height = s.height := by simp [idctBody]
@[simp] theorem idctBody_encLen (s : State) : (idctBody s).encLen = s.encLen := by simp [idctBody]
@[simp] theorem idctBody_decBits (s : State) : (idctBody s).decBits = s.decBits := by simp [idctBody]
@[simp] theorem idctBody_progress (s : State) : (idctBody s).progress = s.progress := by simp [idctBody]
@[simp] theorem idctBody_clampCnt (s : State) : (idctBody s).clampCnt = s.clampCnt := by simp [idctBody]
@[simp] theorem idctBody_blk (s : State) : (idctBody s).blk = saturateBlock (idctExact s.coef) := by simp [idctBody]
@[simp] theorem idctBody_coef (s : State) : (idctBody s).coef = s.coef := by simp [idctBody]
@[simp] theorem idctBody_qblk (s : State) : (idctBody s).qblk = s.qblk := by simp [idctBody]
@[simp] theorem idctBody_phase (s : State) : (idctBody s).phase = s.phase := by simp [idctBody]
@[simp] theorem idctBody_latched (s : State) : (idctBody s).latched = s.latched := by simp [idctBody]
@[simp] theorem idctBody_n (s : State) : (idctBody s).n = s.n := by simp [idctBody]
@[simp] theorem idctBody_i (s : State) : (idctBody s).i = s.i := by simp [idctBody]
@[simp] theorem idctBody_acc (s : State) : (idctBody s).acc = s.acc := by simp [idctBody]
@[simp] theorem idctBody_warnPending (s : State) : (idctBody s).warnPending = s.warnPending := by simp [idctBody]
@[simp] theorem idctBody_img (s : State) : (idctBody s).img = s.img := by simp [idctBody]
@[simp] theorem idctBody_msg (s : State) : (idctBody s).msg = s.msg := by simp [idctBody]
@[simp] theorem idctBody_rstN (s : State) : (idctBody s).rstN = s.rstN := by simp [idctBody]
@[simp] theorem idctBody_lastResponse (s : State) : (idctBody s).lastResponse = s.lastResponse := by simp [idctBody]
@[simp] theorem idctBody_host (s : State) : (idctBody s).host = s.host := by simp [idctBody]
@[simp] theorem idctBody_schedule (s : State) : (idctBody s).schedule = s.schedule := by simp [idctBody]
@[simp] theorem idctBody_freeCount (s : State) : (idctBody s).freeCount = s.freeCount := by simp [idctBody]

/-! ### The body of QUANT (42_quantizer.md R123) -/

@[simp] theorem quantBody_params (s : State) : (quantBody s).params = s.params := by simp [quantBody]
@[simp] theorem quantBody_status (s : State) : (quantBody s).status = s.status := by simp [quantBody]
@[simp] theorem quantBody_intStatus (s : State) : (quantBody s).intStatus = s.intStatus := by simp [quantBody]
@[simp] theorem quantBody_intEnable (s : State) : (quantBody s).intEnable = s.intEnable := by simp [quantBody]
@[simp] theorem quantBody_width (s : State) : (quantBody s).width = s.width := by simp [quantBody]
@[simp] theorem quantBody_height (s : State) : (quantBody s).height = s.height := by simp [quantBody]
@[simp] theorem quantBody_encLen (s : State) : (quantBody s).encLen = s.encLen := by simp [quantBody]
@[simp] theorem quantBody_decBits (s : State) : (quantBody s).decBits = s.decBits := by simp [quantBody]
@[simp] theorem quantBody_progress (s : State) : (quantBody s).progress = s.progress := by simp [quantBody]
@[simp] theorem quantBody_clampCnt (s : State) : (quantBody s).clampCnt = s.clampCnt := by simp [quantBody]
@[simp] theorem quantBody_blk (s : State) : (quantBody s).blk = s.blk := by simp [quantBody]
@[simp] theorem quantBody_coef (s : State) : (quantBody s).coef = s.coef := by simp [quantBody]
@[simp] theorem quantBody_qblk (s : State) : (quantBody s).qblk = quantize s.params s.coef := by simp [quantBody]
@[simp] theorem quantBody_phase (s : State) : (quantBody s).phase = s.phase := by simp [quantBody]
@[simp] theorem quantBody_latched (s : State) : (quantBody s).latched = s.latched := by simp [quantBody]
@[simp] theorem quantBody_n (s : State) : (quantBody s).n = s.n := by simp [quantBody]
@[simp] theorem quantBody_i (s : State) : (quantBody s).i = s.i := by simp [quantBody]
@[simp] theorem quantBody_acc (s : State) : (quantBody s).acc = s.acc := by simp [quantBody]
@[simp] theorem quantBody_warnPending (s : State) : (quantBody s).warnPending = s.warnPending := by simp [quantBody]
@[simp] theorem quantBody_img (s : State) : (quantBody s).img = s.img := by simp [quantBody]
@[simp] theorem quantBody_msg (s : State) : (quantBody s).msg = s.msg := by simp [quantBody]
@[simp] theorem quantBody_rstN (s : State) : (quantBody s).rstN = s.rstN := by simp [quantBody]
@[simp] theorem quantBody_lastResponse (s : State) : (quantBody s).lastResponse = s.lastResponse := by simp [quantBody]
@[simp] theorem quantBody_host (s : State) : (quantBody s).host = s.host := by simp [quantBody]
@[simp] theorem quantBody_schedule (s : State) : (quantBody s).schedule = s.schedule := by simp [quantBody]
@[simp] theorem quantBody_freeCount (s : State) : (quantBody s).freeCount = s.freeCount := by simp [quantBody]

/-! ### The body of DEQUANT (42_quantizer.md R124) -/

@[simp] theorem dequantBody_params (s : State) : (dequantBody s).params = s.params := by simp [dequantBody]
@[simp] theorem dequantBody_status (s : State) : (dequantBody s).status = { s.status with sat := s.status.sat || clips (dequantExact s.params s.qblk) } := by simp [dequantBody]
@[simp] theorem dequantBody_intStatus (s : State) : (dequantBody s).intStatus = s.intStatus := by simp [dequantBody]
@[simp] theorem dequantBody_intEnable (s : State) : (dequantBody s).intEnable = s.intEnable := by simp [dequantBody]
@[simp] theorem dequantBody_width (s : State) : (dequantBody s).width = s.width := by simp [dequantBody]
@[simp] theorem dequantBody_height (s : State) : (dequantBody s).height = s.height := by simp [dequantBody]
@[simp] theorem dequantBody_encLen (s : State) : (dequantBody s).encLen = s.encLen := by simp [dequantBody]
@[simp] theorem dequantBody_decBits (s : State) : (dequantBody s).decBits = s.decBits := by simp [dequantBody]
@[simp] theorem dequantBody_progress (s : State) : (dequantBody s).progress = s.progress := by simp [dequantBody]
@[simp] theorem dequantBody_clampCnt (s : State) : (dequantBody s).clampCnt = s.clampCnt := by simp [dequantBody]
@[simp] theorem dequantBody_blk (s : State) : (dequantBody s).blk = s.blk := by simp [dequantBody]
@[simp] theorem dequantBody_coef (s : State) : (dequantBody s).coef = saturateBlock (dequantExact s.params s.qblk) := by simp [dequantBody]
@[simp] theorem dequantBody_qblk (s : State) : (dequantBody s).qblk = s.qblk := by simp [dequantBody]
@[simp] theorem dequantBody_phase (s : State) : (dequantBody s).phase = s.phase := by simp [dequantBody]
@[simp] theorem dequantBody_latched (s : State) : (dequantBody s).latched = s.latched := by simp [dequantBody]
@[simp] theorem dequantBody_n (s : State) : (dequantBody s).n = s.n := by simp [dequantBody]
@[simp] theorem dequantBody_i (s : State) : (dequantBody s).i = s.i := by simp [dequantBody]
@[simp] theorem dequantBody_acc (s : State) : (dequantBody s).acc = s.acc := by simp [dequantBody]
@[simp] theorem dequantBody_warnPending (s : State) : (dequantBody s).warnPending = s.warnPending := by simp [dequantBody]
@[simp] theorem dequantBody_img (s : State) : (dequantBody s).img = s.img := by simp [dequantBody]
@[simp] theorem dequantBody_msg (s : State) : (dequantBody s).msg = s.msg := by simp [dequantBody]
@[simp] theorem dequantBody_rstN (s : State) : (dequantBody s).rstN = s.rstN := by simp [dequantBody]
@[simp] theorem dequantBody_lastResponse (s : State) : (dequantBody s).lastResponse = s.lastResponse := by simp [dequantBody]
@[simp] theorem dequantBody_host (s : State) : (dequantBody s).host = s.host := by simp [dequantBody]
@[simp] theorem dequantBody_schedule (s : State) : (dequantBody s).schedule = s.schedule := by simp [dequantBody]
@[simp] theorem dequantBody_freeCount (s : State) : (dequantBody s).freeCount = s.freeCount := by simp [dequantBody]

/-! ### The body of EMBED (44_bitstream.md R141) -/

@[simp] theorem embedBody_params (b : Bool) (s : State) : (embedBody b s).params = s.params := rfl
@[simp] theorem embedBody_status (b : Bool) (s : State) : (embedBody b s).status = s.status := rfl
@[simp] theorem embedBody_intStatus (b : Bool) (s : State) : (embedBody b s).intStatus = s.intStatus := rfl
@[simp] theorem embedBody_intEnable (b : Bool) (s : State) : (embedBody b s).intEnable = s.intEnable := rfl
@[simp] theorem embedBody_width (b : Bool) (s : State) : (embedBody b s).width = s.width := rfl
@[simp] theorem embedBody_height (b : Bool) (s : State) : (embedBody b s).height = s.height := rfl
@[simp] theorem embedBody_encLen (b : Bool) (s : State) : (embedBody b s).encLen = s.encLen := rfl
@[simp] theorem embedBody_decBits (b : Bool) (s : State) : (embedBody b s).decBits = s.decBits := rfl
@[simp] theorem embedBody_progress (b : Bool) (s : State) : (embedBody b s).progress = s.progress := rfl
@[simp] theorem embedBody_clampCnt (b : Bool) (s : State) : (embedBody b s).clampCnt = s.clampCnt := rfl
@[simp] theorem embedBody_blk (b : Bool) (s : State) : (embedBody b s).blk = s.blk := rfl
@[simp] theorem embedBody_coef (b : Bool) (s : State) : (embedBody b s).coef = s.coef := rfl
@[simp] theorem embedBody_qblk (b : Bool) (s : State) : (embedBody b s).qblk = s.qblk.set 0 (embedBit s.qblk[0] b) := rfl
@[simp] theorem embedBody_phase (b : Bool) (s : State) : (embedBody b s).phase = s.phase := rfl
@[simp] theorem embedBody_latched (b : Bool) (s : State) : (embedBody b s).latched = s.latched := rfl
@[simp] theorem embedBody_n (b : Bool) (s : State) : (embedBody b s).n = s.n := rfl
@[simp] theorem embedBody_i (b : Bool) (s : State) : (embedBody b s).i = s.i := rfl
@[simp] theorem embedBody_acc (b : Bool) (s : State) : (embedBody b s).acc = s.acc := rfl
@[simp] theorem embedBody_warnPending (b : Bool) (s : State) : (embedBody b s).warnPending = s.warnPending := rfl
@[simp] theorem embedBody_img (b : Bool) (s : State) : (embedBody b s).img = s.img := rfl
@[simp] theorem embedBody_msg (b : Bool) (s : State) : (embedBody b s).msg = s.msg := rfl
@[simp] theorem embedBody_rstN (b : Bool) (s : State) : (embedBody b s).rstN = s.rstN := rfl
@[simp] theorem embedBody_lastResponse (b : Bool) (s : State) : (embedBody b s).lastResponse = s.lastResponse := rfl
@[simp] theorem embedBody_host (b : Bool) (s : State) : (embedBody b s).host = s.host := rfl
@[simp] theorem embedBody_schedule (b : Bool) (s : State) : (embedBody b s).schedule = s.schedule := rfl
@[simp] theorem embedBody_freeCount (b : Bool) (s : State) : (embedBody b s).freeCount = s.freeCount := rfl

/-! ### The body of TILE_STORE (43_tiler.md R130) -/

@[simp] theorem tileStoreBody_params (idx : Nat) (s : State) : (tileStoreBody idx s).params = s.params := by simp [tileStoreBody]
@[simp] theorem tileStoreBody_status (idx : Nat) (s : State) : (tileStoreBody idx s).status = s.status := by simp [tileStoreBody]
@[simp] theorem tileStoreBody_intStatus (idx : Nat) (s : State) : (tileStoreBody idx s).intStatus = s.intStatus := by simp [tileStoreBody]
@[simp] theorem tileStoreBody_intEnable (idx : Nat) (s : State) : (tileStoreBody idx s).intEnable = s.intEnable := by simp [tileStoreBody]
@[simp] theorem tileStoreBody_width (idx : Nat) (s : State) : (tileStoreBody idx s).width = s.width := by simp [tileStoreBody]
@[simp] theorem tileStoreBody_height (idx : Nat) (s : State) : (tileStoreBody idx s).height = s.height := by simp [tileStoreBody]
@[simp] theorem tileStoreBody_encLen (idx : Nat) (s : State) : (tileStoreBody idx s).encLen = s.encLen := by simp [tileStoreBody]
@[simp] theorem tileStoreBody_decBits (idx : Nat) (s : State) : (tileStoreBody idx s).decBits = s.decBits := by simp [tileStoreBody]
@[simp] theorem tileStoreBody_progress (idx : Nat) (s : State) : (tileStoreBody idx s).progress = s.progress := by simp [tileStoreBody]
@[simp] theorem tileStoreBody_blk (idx : Nat) (s : State) : (tileStoreBody idx s).blk = s.blk := by simp [tileStoreBody]
@[simp] theorem tileStoreBody_coef (idx : Nat) (s : State) : (tileStoreBody idx s).coef = s.coef := by simp [tileStoreBody]
@[simp] theorem tileStoreBody_qblk (idx : Nat) (s : State) : (tileStoreBody idx s).qblk = s.qblk := by simp [tileStoreBody]
@[simp] theorem tileStoreBody_phase (idx : Nat) (s : State) : (tileStoreBody idx s).phase = s.phase := by simp [tileStoreBody]
@[simp] theorem tileStoreBody_latched (idx : Nat) (s : State) : (tileStoreBody idx s).latched = s.latched := by simp [tileStoreBody]
@[simp] theorem tileStoreBody_n (idx : Nat) (s : State) : (tileStoreBody idx s).n = s.n := by simp [tileStoreBody]
@[simp] theorem tileStoreBody_i (idx : Nat) (s : State) : (tileStoreBody idx s).i = s.i := by simp [tileStoreBody]
@[simp] theorem tileStoreBody_acc (idx : Nat) (s : State) : (tileStoreBody idx s).acc = s.acc := by simp [tileStoreBody]
@[simp] theorem tileStoreBody_img (idx : Nat) (s : State) : (tileStoreBody idx s).img = s.img.writeAll (storedSamples s.width.toNat idx s.blk) := by simp [tileStoreBody]
@[simp] theorem tileStoreBody_msg (idx : Nat) (s : State) : (tileStoreBody idx s).msg = s.msg := by simp [tileStoreBody]
@[simp] theorem tileStoreBody_rstN (idx : Nat) (s : State) : (tileStoreBody idx s).rstN = s.rstN := by simp [tileStoreBody]
@[simp] theorem tileStoreBody_lastResponse (idx : Nat) (s : State) : (tileStoreBody idx s).lastResponse = s.lastResponse := by simp [tileStoreBody]
@[simp] theorem tileStoreBody_host (idx : Nat) (s : State) : (tileStoreBody idx s).host = s.host := by simp [tileStoreBody]
@[simp] theorem tileStoreBody_schedule (idx : Nat) (s : State) : (tileStoreBody idx s).schedule = s.schedule := by simp [tileStoreBody]
@[simp] theorem tileStoreBody_freeCount (idx : Nat) (s : State) : (tileStoreBody idx s).freeCount = s.freeCount := by simp [tileStoreBody]

/-! ### Reset of the registers (70_reset_and_hazards.md R175) -/

@[simp] theorem resetRegisters_params (s : State) : (resetRegisters s).params = s.params := rfl
@[simp] theorem resetRegisters_status (s : State) : (resetRegisters s).status = State.reset.status := rfl
@[simp] theorem resetRegisters_intStatus (s : State) : (resetRegisters s).intStatus = State.reset.intStatus := rfl
@[simp] theorem resetRegisters_intEnable (s : State) : (resetRegisters s).intEnable = State.reset.intEnable := rfl
@[simp] theorem resetRegisters_width (s : State) : (resetRegisters s).width = State.reset.width := rfl
@[simp] theorem resetRegisters_height (s : State) : (resetRegisters s).height = State.reset.height := rfl
@[simp] theorem resetRegisters_encLen (s : State) : (resetRegisters s).encLen = State.reset.encLen := rfl
@[simp] theorem resetRegisters_decBits (s : State) : (resetRegisters s).decBits = State.reset.decBits := rfl
@[simp] theorem resetRegisters_progress (s : State) : (resetRegisters s).progress = State.reset.progress := rfl
@[simp] theorem resetRegisters_clampCnt (s : State) : (resetRegisters s).clampCnt = State.reset.clampCnt := rfl
@[simp] theorem resetRegisters_blk (s : State) : (resetRegisters s).blk = State.reset.blk := rfl
@[simp] theorem resetRegisters_coef (s : State) : (resetRegisters s).coef = State.reset.coef := rfl
@[simp] theorem resetRegisters_qblk (s : State) : (resetRegisters s).qblk = State.reset.qblk := rfl
@[simp] theorem resetRegisters_phase (s : State) : (resetRegisters s).phase = State.reset.phase := rfl
@[simp] theorem resetRegisters_latched (s : State) : (resetRegisters s).latched = State.reset.latched := rfl
@[simp] theorem resetRegisters_n (s : State) : (resetRegisters s).n = State.reset.n := rfl
@[simp] theorem resetRegisters_i (s : State) : (resetRegisters s).i = State.reset.i := rfl
@[simp] theorem resetRegisters_acc (s : State) : (resetRegisters s).acc = State.reset.acc := rfl
@[simp] theorem resetRegisters_warnPending (s : State) : (resetRegisters s).warnPending = State.reset.warnPending := rfl
@[simp] theorem resetRegisters_img (s : State) : (resetRegisters s).img = s.img := rfl
@[simp] theorem resetRegisters_msg (s : State) : (resetRegisters s).msg = s.msg := rfl
@[simp] theorem resetRegisters_rstN (s : State) : (resetRegisters s).rstN = s.rstN := rfl
@[simp] theorem resetRegisters_lastResponse (s : State) : (resetRegisters s).lastResponse = State.reset.lastResponse := rfl
@[simp] theorem resetRegisters_host (s : State) : (resetRegisters s).host = s.host := rfl
@[simp] theorem resetRegisters_schedule (s : State) : (resetRegisters s).schedule = s.schedule := rfl
@[simp] theorem resetRegisters_freeCount (s : State) : (resetRegisters s).freeCount = s.freeCount := rfl

/-! ### Release of `rst_n` (70_reset_and_hazards.md R178) -/

@[simp] theorem releaseReset_params (s : State) : (releaseReset s).params = s.params := rfl
@[simp] theorem releaseReset_status (s : State) : (releaseReset s).status = s.status := rfl
@[simp] theorem releaseReset_intStatus (s : State) : (releaseReset s).intStatus = s.intStatus := rfl
@[simp] theorem releaseReset_intEnable (s : State) : (releaseReset s).intEnable = s.intEnable := rfl
@[simp] theorem releaseReset_width (s : State) : (releaseReset s).width = s.width := rfl
@[simp] theorem releaseReset_height (s : State) : (releaseReset s).height = s.height := rfl
@[simp] theorem releaseReset_encLen (s : State) : (releaseReset s).encLen = s.encLen := rfl
@[simp] theorem releaseReset_decBits (s : State) : (releaseReset s).decBits = s.decBits := rfl
@[simp] theorem releaseReset_progress (s : State) : (releaseReset s).progress = s.progress := rfl
@[simp] theorem releaseReset_clampCnt (s : State) : (releaseReset s).clampCnt = s.clampCnt := rfl
@[simp] theorem releaseReset_blk (s : State) : (releaseReset s).blk = s.blk := rfl
@[simp] theorem releaseReset_coef (s : State) : (releaseReset s).coef = s.coef := rfl
@[simp] theorem releaseReset_qblk (s : State) : (releaseReset s).qblk = s.qblk := rfl
@[simp] theorem releaseReset_phase (s : State) : (releaseReset s).phase = s.phase := rfl
@[simp] theorem releaseReset_latched (s : State) : (releaseReset s).latched = s.latched := rfl
@[simp] theorem releaseReset_n (s : State) : (releaseReset s).n = s.n := rfl
@[simp] theorem releaseReset_i (s : State) : (releaseReset s).i = s.i := rfl
@[simp] theorem releaseReset_acc (s : State) : (releaseReset s).acc = s.acc := rfl
@[simp] theorem releaseReset_warnPending (s : State) : (releaseReset s).warnPending = s.warnPending := rfl
@[simp] theorem releaseReset_img (s : State) : (releaseReset s).img = s.img := rfl
@[simp] theorem releaseReset_msg (s : State) : (releaseReset s).msg = s.msg := rfl
@[simp] theorem releaseReset_rstN (s : State) : (releaseReset s).rstN = true := rfl
@[simp] theorem releaseReset_lastResponse (s : State) : (releaseReset s).lastResponse = s.lastResponse := rfl
@[simp] theorem releaseReset_host (s : State) : (releaseReset s).host = s.host := rfl
@[simp] theorem releaseReset_schedule (s : State) : (releaseReset s).schedule = s.schedule := rfl
@[simp] theorem releaseReset_freeCount (s : State) : (releaseReset s).freeCount = s.freeCount := rfl

/-! ### BUSY -/

theorem busy_iff (s : State) : s.busy = true ↔ s.phase ≠ .idle := by
  unfold State.busy; cases s.phase <;> decide

theorem not_busy_iff (s : State) : s.busy = false ↔ s.phase = .idle := by
  unfold State.busy; cases s.phase <;> decide

@[simp] theorem accept_busy (w : Word) (s : State) : (accept w s).busy = true := rfl

@[simp] theorem complete_busy (e : ErrorCode) (s : State) : (complete e s).busy = false := rfl

/-! ### The two ends of a command (40_command.md R94) -/

@[simp] theorem finish_eq (s : State) : finish s = s.finished := by simp [finish, complete, State.finished]

theorem raiseError_eq {e : ErrorCode} (h : e ≠ .noError) (s : State) : raiseError e s = s.failed e := by
  simp [raiseError, complete, h]

end Sys2Proof.Machine
end

