-- ==== Sys2Proof/Laws/Ops.lean ====
section
/-! SUPPORT. One lemma per shared operation, saying once everything it can do. -/

namespace Sys2Proof.Machine

/-! ### Integer primitives (00_scope.md R15) -/

theorem sat32_bounds (z : Int) : -2147483648 ≤ sat32 z ∧ sat32 z ≤ 2147483647 := by
  unfold sat32; omega

theorem sat32_eq_self {z : Int} (h1 : -2147483648 ≤ z) (h2 : z ≤ 2147483647) : sat32 z = z := by
  unfold sat32; omega

/-- An integer in range survives being stored in a word. -/
theorem sext32_wordOfInt {z : Int} (h1 : -2147483648 ≤ z) (h2 : z ≤ 2147483647) : sext32 (wordOfInt z) = z := by
  unfold sext32 wordOfInt
  rw [BitVec.toInt_ofInt]
  exact Int.bmod_eq_of_le (by omega) (by omega)

theorem sext32_bounds (w : Word) : -2147483648 ≤ sext32 w ∧ sext32 w ≤ 2147483647 := by
  have h1 := BitVec.le_toInt w
  have h2 := BitVec.toInt_lt (x := w)
  unfold sext32
  omega

theorem wordOfInt_sext32 (w : Word) : wordOfInt (sext32 w) = w := by
  simp [wordOfInt, sext32]

/-- `rnd` is the nearest integer, half up (00_scope.md R15): it differs from `z / 2^n` by at most one half. -/
theorem rnd_spec (z : Int) (n : Nat) (hn : 1 ≤ n) :
    2 * z - (2 ^ n : Nat) < 2 * ((2 ^ n : Nat) * rnd z n) ∧ 2 * ((2 ^ n : Nat) * rnd z n) ≤ 2 * z + (2 ^ n : Nat) := by
  obtain ⟨m, rfl⟩ : ∃ m, n = m + 1 := ⟨n - 1, by omega⟩
  have hpow : (2 ^ (m + 1) : Nat) = 2 * 2 ^ m := by rw [Nat.pow_succ]; omega
  have hpos : 0 < 2 ^ m := Nat.two_pow_pos m
  unfold rnd
  rw [show m + 1 - 1 = m from rfl, hpow]
  generalize hp : (2 ^ m : Nat) = p at *
  have h1 := Int.emod_nonneg (z + (p : Int)) (show ((2 * p : Nat) : Int) ≠ 0 by omega)
  have h2 := Int.emod_lt_of_pos (z + (p : Int)) (show 0 < ((2 * p : Nat) : Int) by omega)
  have h3 := Int.mul_ediv_add_emod (z + (p : Int)) ((2 * p : Nat) : Int)
  generalize (z + (p : Int)) / ((2 * p : Nat) : Int) = q at *
  constructor <;> omega

/-- `mod2` is 0 or 1, the remainder of a floored division by 2. -/
theorem mod2_eq_emod (z : Int) : mod2 z = z % 2 := by unfold mod2; omega

/-! ### Block buffers -/

@[simp] theorem rowOf_blockIndex (r c : Fin 8) : rowOf (blockIndex r c) = r := by
  apply Fin.ext; simp only [rowOf, blockIndex]; omega

@[simp] theorem colOf_blockIndex (r c : Fin 8) : colOf (blockIndex r c) = c := by
  apply Fin.ext; simp only [colOf, blockIndex]; omega

@[simp] theorem blockIndex_rowOf_colOf (k : Fin 64) : blockIndex (rowOf k) (colOf k) = k := by
  apply Fin.ext; simp only [rowOf, colOf, blockIndex]; omega

theorem saturateBlock_getElem (r : IntBlock) (k : Fin 64) : sext32 (saturateBlock r)[k] = sat32 r[k] := by
  obtain ⟨h1, h2⟩ := sat32_bounds r[k]
  simp only [saturateBlock, Fin.getElem_fin, Vector.getElem_ofFn]
  exact sext32_wordOfInt h1 h2

/-- `clips` says that some value of the block is changed by `sat32`. -/
theorem clips_iff (r : IntBlock) : clips r = true ↔ ∃ k : Fin 64, r[k] ≠ sat32 r[k] := by
  simp [clips]

theorem clips_eq_false_iff (r : IntBlock) : clips r = false ↔ ∀ k : Fin 64, r[k] = sat32 r[k] := by
  simp [clips]

/-! ### Steps that may fault -/

/-- A step that ends in a next state has a body that did not fault. -/
theorem endWith_next {r : Except Fault State} {k : State → State} {t : State} (h : endWith r k = .next t) :
    ∃ u, r = .ok u ∧ t = k u := by
  cases r with
  | error f => simp [endWith] at h
  | ok u => exact ⟨u, rfl, by simpa [endWith] using h.symm⟩

theorem endWith_fault {r : Except Fault State} {k : State → State} {f : Fault} (h : endWith r k = .fault f) :
    r = .error f := by
  cases r with
  | error g => simpa [endWith] using h
  | ok u => simp [endWith] at h

@[simp] theorem endWith_ok (u : State) (k : State → State) : endWith (.ok u) k = .next (k u) := rfl

theorem mem_entryAddrs {W i a : Nat} : a ∈ entryAddrs W i ↔ ∃ k : Fin 64, a = sampleAddr W i k.val := by
  simp only [entryAddrs, List.mem_map, List.mem_range]
  constructor
  · rintro ⟨k, hk, rfl⟩; exact ⟨⟨k, hk⟩, rfl⟩
  · rintro ⟨k, rfl⟩; exact ⟨k.val, k.isLt, rfl⟩

/-- TILE_LOAD's body loads the entry when every byte of it is written (43_tiler.md R129). -/
theorem tileLoadBody_of_written {idx : Nat} {s : State} (h : s.entryWritten idx) :
    tileLoadBody idx s = .ok { s with blk := loadedBlock s.img s.width.toNat idx } := by
  have : s.img.firstUnwritten (entryAddrs s.width.toNat idx) = none := by
    rw [Memory.firstUnwritten_eq_none_iff]
    intro a ha
    obtain ⟨k, rfl⟩ := mem_entryAddrs.mp ha
    exact h k
  simp [tileLoadBody, this]

/-- What TILE_LOAD's body can do: load the entry, every byte of which is written. -/
theorem tileLoadBody_ok {idx : Nat} {s t : State} (h : tileLoadBody idx s = .ok t) :
    s.entryWritten idx ∧ t = { s with blk := loadedBlock s.img s.width.toNat idx } := by
  unfold tileLoadBody at h
  split at h
  · cases h
  · rename_i hn
    refine ⟨fun k => ?_, by simpa using h.symm⟩
    exact (Memory.firstUnwritten_eq_none_iff _ _).mp hn _ (mem_entryAddrs.mpr ⟨k, rfl⟩)

/-- When TILE_LOAD's body faults: a byte of the entry has never been written (20_memory.md R84). -/
theorem tileLoadBody_error {idx : Nat} {s : State} {f : Fault} (h : tileLoadBody idx s = .error f) :
    ∃ k : Fin 64, f = .unwrittenByte .img (sampleAddr s.width.toNat idx k.val) ∧
      s.img.read (sampleAddr s.width.toNat idx k.val) = none := by
  unfold tileLoadBody at h
  split at h
  · rename_i a ha
    obtain ⟨hm, hr⟩ := Memory.of_firstUnwritten ha
    obtain ⟨k, rfl⟩ := mem_entryAddrs.mp hm
    exact ⟨k, by simpa using h.symm, hr⟩
  · cases h

theorem loadedBlock_getElem (m : Memory) (W idx : Nat) (k : Fin 64) :
    (loadedBlock m W idx)[k] = sampleWord ((m.read (sampleAddr W idx k.val)).getD 0#8) := by
  simp [loadedBlock]

theorem payloadBit_ok {m : Memory} {i : Nat} {b : Bool} (h : payloadBit m i = .ok b) :
    ∃ byte, m.read (i / 8) = some byte ∧ b = payloadBitOf byte i := by
  unfold payloadBit at h
  split at h
  · rename_i byte hb
    exact ⟨byte, hb, by simpa using h.symm⟩
  · cases h

theorem payloadBit_error {m : Memory} {i : Nat} {f : Fault} (h : payloadBit m i = .error f) :
    f = .unwrittenByte .msg (i / 8) ∧ m.read (i / 8) = none := by
  unfold payloadBit at h
  split at h
  · cases h
  · rename_i hn
    exact ⟨by simpa using h.symm, hn⟩

/-- What `countClamps` leaves in CLAMP_CNT (43_tiler.md R132). -/
theorem countClamps_clampCnt (c : Nat) (s : State) :
    (countClamps c s).clampCnt.toNat = min (s.clampCnt.toNat + c) 4294967295 := by
  have := s.clampCnt.isLt
  unfold countClamps
  split
  · simp only [BitVec.toNat_ofNat]; omega
  · rename_i h; obtain rfl : c = 0 := by omega
    omega

theorem countClamps_warnPending (c : Nat) (s : State) :
    (countClamps c s).warnPending = (s.warnPending || decide (c > 0)) := by
  unfold countClamps
  split
  · rename_i h; simp [h]
  · rename_i h; simp [h]

/-- The addresses TILE_STORE's body writes are those of the entry (43_tiler.md R133). -/
theorem mem_storedSamples {W idx : Nat} {blk : Block} {x : Nat × Byte} :
    x ∈ storedSamples W idx blk ↔ ∃ k : Fin 64, x = (sampleAddr W idx k.val, (toSample blk[k]).1) := by
  simp [storedSamples, eq_comm]

/-- TILE_STORE's body writes only the bytes of the entry (43_tiler.md R133). -/
theorem tileStoreBody_read_of_notMem {idx a : Nat} (s : State) (h : a ∉ entryAddrs s.width.toNat idx) :
    (tileStoreBody idx s).img.read a = s.img.read a := by
  rw [tileStoreBody_img]
  refine Memory.read_writeAll_of_notMem _ fun x hx hax => h ?_
  obtain ⟨k, rfl⟩ := mem_storedSamples.mp hx
  exact mem_entryAddrs.mpr ⟨k, hax⟩

/-! ### What ENCODE's and DECODE's entry steps can do -/

/-- The entry step of ENCODE reads its payload bit and its block, both written, and runs the bodies (45_codec.md R149). -/
theorem encodeEntry_ok {s t : State} (h : encodeEntry s = .ok t) :
    ∃ byte, s.msg.read (s.i / 8) = some byte ∧ s.entryWritten s.i ∧
      t = encodeBlock (payloadBitOf byte s.i) s.i { s with blk := loadedBlock s.img s.width.toNat s.i } := by
  unfold encodeEntry at h
  split at h
  · cases h
  · rename_i b hb
    obtain ⟨byte, hr, rfl⟩ := payloadBit_ok hb
    split at h
    · cases h
    · rename_i u hu
      obtain ⟨hw, rfl⟩ := tileLoadBody_ok hu
      exact ⟨byte, hr, hw, by simpa using h.symm⟩

theorem encodeEntry_of_written {s : State} {byte : Byte} (hm : s.msg.read (s.i / 8) = some byte) (h : s.entryWritten s.i) :
    encodeEntry s = .ok (encodeBlock (payloadBitOf byte s.i) s.i { s with blk := loadedBlock s.img s.width.toNat s.i }) := by
  simp [encodeEntry, payloadBit, hm, tileLoadBody_of_written h]

/-- The entry step of DECODE reads its block, written, and receives the parity of its DC coefficient (45_codec.md R155). -/
theorem decodeEntry_ok {s t : State} (h : decodeEntry s = .ok t) :
    s.entryWritten s.i ∧
      t = receiveBit (dcParity s.params s.img s.width.toNat s.i)
        (quantBody (fdctBody { s with blk := loadedBlock s.img s.width.toNat s.i })) := by
  unfold decodeEntry at h
  split at h
  · cases h
  · rename_i u hu
    obtain ⟨hw, rfl⟩ := tileLoadBody_ok hu
    refine ⟨hw, ?_⟩
    simpa [dcParity] using h.symm

theorem decodeEntry_of_written {s : State} (h : s.entryWritten s.i) :
    decodeEntry s = .ok (receiveBit (dcParity s.params s.img s.width.toNat s.i)
        (quantBody (fdctBody { s with blk := loadedBlock s.img s.width.toNat s.i }))) := by
  simp [decodeEntry, tileLoadBody_of_written h, dcParity]

/-! ### The bus -/

/-- What a host write can do: nothing, refused; or the effect of a register, buffer or memory write, performed. -/
theorem whileIdle_cases (s s' : State) :
    (s.busy = true ∧ whileIdle s s' = (s, .error)) ∨ (s.busy = false ∧ whileIdle s s' = (s', .okay)) := by
  unfold whileIdle; cases s.busy <;> simp

end Sys2Proof.Machine
end

