-- ==== Sys2Proof/Laws/Commands.lean ====
section
/-! SUPPORT. What each command step can do, the checks, the address map and the abandoned bytes: one lemma per operation, which
says once everything it can do. -/

namespace Sys2Proof.Machine

/-! ### The checks (60_exceptions.md R158, R159) -/

theorem geometryOk_of_checks {s : State} (h1 : s.tooLarge = false) (h2 : s.tooSmall = false) : s.geometryOk := by
  simp only [State.tooLarge, State.tooSmall, decide_eq_false_iff_not] at h1 h2
  exact ⟨by omega, by omega, by omega⟩

/-- A TILE_LOAD or TILE_STORE that passes its checks has a geometry that fits and an entry that exists. -/
theorem tileCheck_ok {idx : Nat} {s : State} (h : tileCheck idx s = .noError) : s.geometryOk ∧ idx < s.capacity := by
  unfold tileCheck at h
  split at h
  · cases h
  · split at h
    · cases h
    · split at h
      · cases h
      · rename_i h1 h2 h3
        exact ⟨geometryOk_of_checks (by simpa using h1) (by simpa using h2), by omega⟩

/-- An ENCODE that passes its checks has a geometry that fits and a message that fits its capacity. -/
theorem encodeCheck_ok {s : State} (h : encodeCheck s = .noError) : s.geometryOk ∧ 8 * s.encLen.toNat ≤ s.capacity := by
  unfold encodeCheck at h
  split at h
  · cases h
  · split at h
    · cases h
    · split at h
      · cases h
      · rename_i h1 h2 h3
        exact ⟨geometryOk_of_checks (by simpa using h1) (by simpa using h3), by omega⟩

/-- A DECODE that passes its checks has a geometry that fits and no more bits than its capacity. -/
theorem decodeCheck_ok {s : State} (h : decodeCheck s = .noError) : s.geometryOk ∧ s.decBits.toNat ≤ s.capacity := by
  unfold decodeCheck at h
  split at h
  · cases h
  · split at h
    · cases h
    · split at h
      · cases h
      · rename_i h1 h2 h3
        exact ⟨geometryOk_of_checks (by simpa using h1) (by simpa using h2), by omega⟩

/-! ### The commands that look at their operands -/

/-- TILE_LOAD ends in an error and changes nothing else, or loads its entry, every byte of which is written. -/
theorem execTileLoad_cases {idx : Nat} {s t : State} (h : execTileLoad idx s = .next t) :
    (tileCheck idx s ≠ .noError ∧ t = complete (tileCheck idx s) s) ∨
    (tileCheck idx s = .noError ∧ s.entryWritten idx ∧
      t = complete .noError { s with blk := loadedBlock s.img s.width.toNat idx }) := by
  unfold execTileLoad at h
  split at h
  · rename_i hk
    obtain ⟨u, hu, rfl⟩ := endWith_next h
    obtain ⟨hw, rfl⟩ := tileLoadBody_ok hu
    exact .inr ⟨hk, hw, rfl⟩
  · rename_i hk
    exact .inl ⟨hk, by simpa [raiseError] using h.symm⟩

/-- TILE_STORE ends in an error and changes nothing else, or stores its entry. -/
theorem execTileStore_cases {idx : Nat} {s t : State} (h : execTileStore idx s = .next t) :
    (tileCheck idx s ≠ .noError ∧ t = complete (tileCheck idx s) s) ∨
    (tileCheck idx s = .noError ∧ t = complete .noError (tileStoreBody idx s)) := by
  unfold execTileStore at h
  split at h
  · rename_i hk
    exact .inr ⟨hk, by simpa [finish] using h.symm⟩
  · rename_i hk
    exact .inl ⟨hk, by simpa [raiseError] using h.symm⟩

/-! ### The loop commands -/

/-- `advance` moves to the next entry, or completes after the last. -/
theorem advance_cases (s : State) :
    (s.i + 1 = s.n ∧ advance s = complete .noError { s with i := s.i + 1, progress := BitVec.ofNat 32 (s.i + 1) }) ∨
    (s.i + 1 ≠ s.n ∧ advance s = { s with i := s.i + 1, progress := BitVec.ofNat 32 (s.i + 1) }) := by
  simp only [advance, finish]
  split <;> simp_all

/-- `startLoop` completes at once when there is no entry, and enters phase LOOP otherwise. -/
theorem startLoop_cases (n : Nat) (s : State) :
    (n = 0 ∧ startLoop n s = complete .noError { s with progress := 0#32, n := n, i := 0 }) ∨
    (n ≠ 0 ∧ startLoop n s = { s with progress := 0#32, n := n, i := 0, phase := .loop }) := by
  simp only [startLoop, finish]
  split <;> simp_all

/-- `receiveBit` changes LASTBIT, the accumulator and at most one byte of MSG, the byte of the entry. -/
theorem receiveBit_cases (b : Bool) (s : State) :
    ((s.i % 8 = 7 ∨ s.i + 1 = s.n) ∧
      receiveBit b s = { s with
        status := { s.status with lastBit := b }, msg := s.msg.write (s.i / 8) (accumulate s.acc b s.i), acc := 0#8 }) ∨
    (¬ (s.i % 8 = 7 ∨ s.i + 1 = s.n) ∧
      receiveBit b s = { s with status := { s.status with lastBit := b }, acc := accumulate s.acc b s.i }) := by
  by_cases h : s.i % 8 = 7 ∨ s.i + 1 = s.n
  · exact .inl ⟨h, if_pos h⟩
  · exact .inr ⟨h, if_neg h⟩

/-- One step of ENCODE: an error, the initialisation, or the next entry, its message byte and its block written. -/
theorem execEncode_cases {s t : State} (h : execEncode s = .next t) :
    (s.phase ≠ .loop ∧ encodeCheck s ≠ .noError ∧ t = complete (encodeCheck s) s) ∨
    (s.phase ≠ .loop ∧ encodeCheck s = .noError ∧ t = startLoop (8 * s.encLen.toNat) { s with clampCnt := 0#32 }) ∨
    (s.phase = .loop ∧ ∃ byte, s.msg.read (s.i / 8) = some byte ∧ s.entryWritten s.i ∧
      t = advance (encodeBlock (payloadBitOf byte s.i) s.i { s with blk := loadedBlock s.img s.width.toNat s.i })) := by
  have start : encodeStart s = .next t →
      (encodeCheck s ≠ .noError ∧ t = complete (encodeCheck s) s) ∨
      (encodeCheck s = .noError ∧ t = startLoop (8 * s.encLen.toNat) { s with clampCnt := 0#32 }) := by
    intro h
    unfold encodeStart at h
    split at h
    · rename_i hk; exact .inr ⟨hk, by simpa using h.symm⟩
    · rename_i hk; exact .inl ⟨hk, by simpa [raiseError] using h.symm⟩
  unfold execEncode at h
  split at h <;> rename_i hp
  · obtain ⟨u, hu, rfl⟩ := endWith_next h
    obtain ⟨byte, hr, hw, rfl⟩ := encodeEntry_ok hu
    exact .inr (.inr ⟨hp, byte, hr, hw, rfl⟩)
  · rcases start h with h | h <;> simp [hp, h]
  · rcases start h with h | h <;> simp [hp, h]

/-- One step of DECODE: an error, the initialisation, or the next entry, its block written. -/
theorem execDecode_cases {s t : State} (h : execDecode s = .next t) :
    (s.phase ≠ .loop ∧ decodeCheck s ≠ .noError ∧ t = complete (decodeCheck s) s) ∨
    (s.phase ≠ .loop ∧ decodeCheck s = .noError ∧ t = startLoop s.decBits.toNat { s with acc := 0#8 }) ∨
    (s.phase = .loop ∧ s.entryWritten s.i ∧
      t = advance (receiveBit (dcParity s.params s.img s.width.toNat s.i)
        (quantBody (fdctBody { s with blk := loadedBlock s.img s.width.toNat s.i })))) := by
  have start : decodeStart s = .next t →
      (decodeCheck s ≠ .noError ∧ t = complete (decodeCheck s) s) ∨
      (decodeCheck s = .noError ∧ t = startLoop s.decBits.toNat { s with acc := 0#8 }) := by
    intro h
    unfold decodeStart at h
    split at h
    · rename_i hk; exact .inr ⟨hk, by simpa using h.symm⟩
    · rename_i hk; exact .inl ⟨hk, by simpa [raiseError] using h.symm⟩
  unfold execDecode at h
  split at h <;> rename_i hp
  · obtain ⟨u, hu, rfl⟩ := endWith_next h
    obtain ⟨hw, rfl⟩ := decodeEntry_ok hu
    exact .inr (.inr ⟨hp, hw, rfl⟩)
  · rcases start h with h | h <;> simp [hp, h]
  · rcases start h with h | h <;> simp [hp, h]

/-! ### The address map (20_memory.md R57) -/

theorem csrAt_ne_memory (n : Nat) : (∀ j, csrAt n ≠ .msg j) ∧ (∀ a, csrAt n ≠ .img a) := by
  unfold csrAt
  split <;> simp

theorem regionOf_msg {p : Params} {off j : Nat} (h : regionOf p off = .msg j) : off = 0x10000 + j ∧ j < p.msgBytes := by
  unfold regionOf at h
  repeat' split at h
  all_goals first
    | exact absurd h ((csrAt_ne_memory _).1 _)
    | (simp at h; omega)
    | simp at h

theorem regionOf_img {p : Params} {off a : Nat} (h : regionOf p off = .img a) : off = 0x1000000 + a ∧ a < p.imgBytes := by
  unfold regionOf at h
  repeat' split at h
  all_goals first
    | exact absurd h ((csrAt_ne_memory _).2 _)
    | (simp at h; omega)
    | simp at h

/-! ### A 4-byte access to a register (10_state.md R26) -/

theorem hostAccess_write32_csr {off : Offset} {c : Csr} (v : Word) (s : State) (h1 : off.toNat < 0x1000) (h2 : off.toNat % 4 = 0)
    (hc : csrAt (off.toNat / 4) = .csr c) :
    hostAccess (write32 off v) s =
      .next { (csrWrite c v s).1 with lastResponse := some (.write (csrWrite c v s).2) } := by
  have hr : regionOf s.params off.toNat = .csr c := by rw [regionOf, if_pos h1, hc]
  have hl : legalShape (.csr c) (write32 off v) = true := by simp [legalShape, Transaction.bytes, h2]
  simp [hostAccess, busWrite, hr, hl]

theorem hostAccess_read32_csr {off : Offset} {c : Csr} (s : State) (h1 : off.toNat < 0x1000) (h2 : off.toNat % 4 = 0)
    (hc : csrAt (off.toNat / 4) = .csr c) :
    hostAccess (read32 off) s = .next { s with lastResponse := some (.read .okay (csrRead c s)) } := by
  have hr : regionOf s.params off.toNat = .csr c := by rw [regionOf, if_pos h1, hc]
  have hl : legalShape (.csr c) (read32 off) = true := by simp [legalShape, Transaction.bytes, h2]
  simp [hostAccess, busRead, hr, hl]

/-! ### The bytes a reset leaves free (70_reset_and_hazards.md R179) -/

theorem freeBytes_addrs (c : Nat) (l : List Nat) : (freeBytes c l).map Prod.fst = l := by
  induction l generalizing c with
  | nil => rfl
  | cons a l ih => simp [freeBytes, ih]

theorem mem_entriesAddrs {W n a : Nat} : a ∈ entriesAddrs W n ↔ ∃ i < n, a ∈ entryAddrs W i := by
  simp [entriesAddrs]

theorem read_writeAll_freeBytes_of_notMem {m : Memory} {c a : Nat} {l : List Nat} (h : a ∉ l) :
    (m.writeAll (freeBytes c l)).read a = m.read a := by
  refine Memory.read_writeAll_of_notMem _ fun x hx hax => h ?_
  rw [← freeBytes_addrs c l, hax]
  exact List.mem_map_of_mem hx

theorem read_writeAll_freeBytes_isSome {m : Memory} {c a : Nat} {l : List Nat} (h : a ∈ l) :
    ((m.writeAll (freeBytes c l)).read a).isSome = true := by
  rw [← freeBytes_addrs c l, List.mem_map] at h
  obtain ⟨x, hx, rfl⟩ := h
  exact Memory.read_writeAll_isSome_of_mem _ hx

end Sys2Proof.Machine
end

