-- ==== Sys2Proof/Laws/PerInstr.lean ====
section
/-! SUPPORT. Statements made per command. -/

namespace Sys2Proof

/-- A word with only `idx` in IDX and `op` in OP, as its four fields (30_encoding.md R86). -/
theorem tileWord_toNat {idx op : Nat} (h : idx < 2 ^ 24) (hop : op < 16) :
    ((BitVec.ofNat 32 idx <<< 8) ||| BitVec.ofNat 32 op).toNat = idx * 256 + op := by
  have h1 : (BitVec.ofNat 32 idx <<< 8).toNat = 2 ^ 8 * idx := by
    rw [BitVec.toNat_shiftLeft, BitVec.toNat_ofNat, Nat.shiftLeft_eq]; omega
  rw [BitVec.toNat_or, h1, BitVec.toNat_ofNat, Nat.mod_eq_of_lt (by omega : op < 2 ^ 32),
    ← Nat.two_pow_add_eq_or_of_lt (by omega : op < 2 ^ 8)]
  omega

theorem opField_toNat (w : Word) : (opField w).toNat = w.toNat % 16 := by
  simp [opField, BitVec.extractLsb'_toNat]

theorem rsvField_toNat (w : Word) : (rsvField w).toNat = w.toNat / 32 % 8 := by
  simp [rsvField, BitVec.extractLsb'_toNat, Nat.shiftRight_eq_div_pow]

theorem idxField_toNat (w : Word) : (idxField w).toNat = w.toNat / 256 := by
  have := w.isLt
  simp only [idxField, BitVec.extractLsb'_toNat, Nat.shiftRight_eq_div_pow]
  omega

theorem bField_eq (w : Word) : bField w = decide (w.toNat / 16 % 2 = 1) := by
  simp [bField, BitVec.getLsbD, Nat.testBit_eq_decide_div_mod_eq]

namespace Laws.RoundTrip

/-- Decoding the word of a well-formed command gives the command back (30_encoding.md R86, R87, R90). -/
def Statement (i : Instr) : Prop := i.wf = true → Sys2Proof.decode (Sys2Proof.encode i) = .ok i

theorem nop : Statement .nop := fun _ => rfl
theorem encode : Statement .encode := fun _ => rfl
theorem decode : Statement .decode := fun _ => rfl
theorem fdct : Statement .fdct := fun _ => rfl
theorem idct : Statement .idct := fun _ => rfl
theorem quant : Statement .quant := fun _ => rfl
theorem dequant : Statement .dequant := fun _ => rfl
theorem embed (b : Bool) : Statement (.embed b) := fun _ => by cases b <;> rfl
theorem extract : Statement .extract := fun _ => rfl

theorem tileLoad (idx : Nat) : Statement (.tileLoad idx) := fun h => by
  have hi : idx < 2 ^ 24 := by simpa [Instr.wf] using h
  have hn : (Sys2Proof.encode (.tileLoad idx)).toNat = idx * 256 + 9 := tileWord_toNat hi (op := 9) (by omega)
  have hop : opField (Sys2Proof.encode (.tileLoad idx)) = 9#4 := BitVec.eq_of_toNat_eq (by rw [opField_toNat, hn]; simp; omega)
  have hr : rsvField (Sys2Proof.encode (.tileLoad idx)) = 0#3 := BitVec.eq_of_toNat_eq (by rw [rsvField_toNat, hn]; simp; omega)
  have hb : bField (Sys2Proof.encode (.tileLoad idx)) = false := by rw [bField_eq, hn]; simp; omega
  have hx : (idxField (Sys2Proof.encode (.tileLoad idx))).toNat = idx := by rw [idxField_toNat, hn]; omega
  simp [Sys2Proof.decode, hop, hr, hb, hx]

theorem tileStore (idx : Nat) : Statement (.tileStore idx) := fun h => by
  have hi : idx < 2 ^ 24 := by simpa [Instr.wf] using h
  have hn : (Sys2Proof.encode (.tileStore idx)).toNat = idx * 256 + 10 := tileWord_toNat hi (op := 10) (by omega)
  have hop : opField (Sys2Proof.encode (.tileStore idx)) = 10#4 := BitVec.eq_of_toNat_eq (by rw [opField_toNat, hn]; simp; omega)
  have hr : rsvField (Sys2Proof.encode (.tileStore idx)) = 0#3 := BitVec.eq_of_toNat_eq (by rw [rsvField_toNat, hn]; simp; omega)
  have hb : bField (Sys2Proof.encode (.tileStore idx)) = false := by rw [bField_eq, hn]; simp; omega
  have hx : (idxField (Sys2Proof.encode (.tileStore idx))).toNat = idx := by rw [idxField_toNat, hn]; omega
  simp [Sys2Proof.decode, hop, hr, hb, hx]

end Laws.RoundTrip

end Sys2Proof
end

