-- ==== Sys2Proof/Tests/Slice0.lean ====
section
/-! SUPPORT. Tests of the model, with expected values from spec/95_test_vectors.md and the rules' own examples; and for each
statement with hypotheses a witness that meets them. -/

namespace Sys2Proof.Tests

open Sys2Proof Sys2Proof.Machine

set_option maxRecDepth 8000

/-! ### Helpers -/

/-- A value read from the next state of an outcome. -/
def got {α : Type} (o : Host.Outcome State Fault Refusal) (f : State → α) : Option α :=
  match o with
  | .next t => some (f t)
  | .fault _ => none
  | .refused _ => none

/-- The fault of an outcome. -/
def faultOf (o : Host.Outcome State Fault Refusal) : Option Fault :=
  match o with
  | .next _ => none
  | .fault f => some f
  | .refused _ => none

/-- `n` bytes `v` from address `b` on. -/
def filled (b : Nat) : Nat → Byte → Memory
  | 0, _ => []
  | n + 1, v => (b, v) :: filled (b + 1) n v

theorem filled_read {n : Nat} (v : Byte) : ∀ {b a : Nat}, b ≤ a → a < b + n → (filled b n v).read a = some v := by
  induction n with
  | zero => intro b a h1 h2; omega
  | succ n ih =>
    intro b a h1 h2
    rw [filled, Memory.read_cons]
    split
    · rfl
    · exact ih (by omega) (by omega)

theorem filled_ge {n : Nat} {v : Byte} : ∀ {b : Nat} {c : Host.Cell}, c ∈ filled b n v → b ≤ c.1 ∧ c.1 < b + n := by
  induction n with
  | zero => intro b c h; simp [filled] at h
  | succ n ih =>
    intro b c h
    rcases List.mem_cons.mp h with rfl | h
    · simp
    · have := ih h; omega

theorem filled_wf {n : Nat} (v : Byte) : ∀ {b : Nat}, (filled b n v).wf := by
  induction n with
  | zero => intro b; exact List.Pairwise.nil
  | succ n ih =>
    intro b
    exact List.pairwise_cons.mpr ⟨fun c hc => by have := filled_ge hc; simp only; omega, ih⟩

/-- The parameters of the tests' small machine: room for a 24 × 8 image and 4 message bytes. -/
def smallParams : Params := { imgBytes := 576, msgBytes := 4, qtab := Config.defaultQtab }

/-- A small machine with a uniform 24 × 8 image of 100s (CAPACITY 9), the message byte 0x68, ENC_LEN 1 and DEC_BITS 9. -/
def small : State :=
  { State.reset with
    params := smallParams, width := 24#16, height := 8#16, encLen := 1#32, decBits := 9#32
    img := filled 0 576 100#8, msg := [(0, 0x68#8)] }

/-- The small machine in the loop of a command, before entry `i` of `n`. -/
def smallLoop (w : Word) (n i : Nat) : State :=
  { small with latched := w, phase := .loop, n := n, i := i, progress := BitVec.ofNat 32 i }

/-- A block with one word `w` at `k` and 0 elsewhere. -/
def oneWord (k : Fin 64) (w : Word) : Block := Block.reset.set k w

/-! ### Decoding (30_encoding.md R86 to R90; 95_test_vectors.md section 2.7) -/

theorem test_decode_nop : decode 0b00000000000000000000000000000000#32 = .ok .nop := by decide
theorem test_decode_encode : decode 0b00000000000000000000000000000001#32 = .ok .encode := by decide
theorem test_decode_decode : decode 0b00000000000000000000000000000010#32 = .ok .decode := by decide
theorem test_decode_fdct : decode 0b00000000000000000000000000000011#32 = .ok .fdct := by decide
theorem test_decode_idct : decode 0b00000000000000000000000000000100#32 = .ok .idct := by decide
theorem test_decode_quant : decode 0b00000000000000000000000000000101#32 = .ok .quant := by decide
theorem test_decode_dequant : decode 0b00000000000000000000000000000110#32 = .ok .dequant := by decide
theorem test_decode_embed_0 : decode 0b00000000000000000000000000000111#32 = .ok (.embed false) := by decide
theorem test_decode_embed_1 : decode 0b00000000000000000000000000010111#32 = .ok (.embed true) := by decide
theorem test_decode_extract : decode 0b00000000000000000000000000001000#32 = .ok .extract := by decide
theorem test_decode_tileLoad : decode 0b00000000000000000000001100001001#32 = .ok (.tileLoad 3) := by decide
theorem test_decode_tileStore : decode 0b00000000000000000000101100001010#32 = .ok (.tileStore 11) := by decide
theorem test_decode_illegal :
    [0x00000010#32, 0x00000027#32, 0x00000103#32, 0x00000117#32, 0x00000097#32, 0x0000001A#32, 0x0000000B#32, 0x0000000F#32].map
      (fun w => (decode w).toOption) = List.replicate 8 none := by decide
theorem test_encode_words :
    [Instr.embed true, .tileLoad 3, .tileStore 11].map encode = [0x00000017#32, 0x00000309#32, 0x00000B0A#32] := by decide
theorem test_decodeTableWord : decodeTableWord 32 0x309 = some (.tileLoad 3) := by decide

/-! ### Well-formedness (30_encoding.md R90) -/

theorem test_wf_refuses_a_long_tileLoad_index : (Instr.tileLoad (2 ^ 24)).wf = false := by decide
theorem test_wf_refuses_a_long_tileStore_index : (Instr.tileStore (2 ^ 24)).wf = false := by decide
theorem test_wf_accepts_the_longest_index : (Instr.tileLoad (2 ^ 24 - 1)).wf = true := by decide

/-! ### The commands, one step each -/

/-- 40_command.md R97. -/
theorem test_nop_completes :
    got (step (State.reset.withFetchWord 32 0)) (fun t => (statusWord t, t.intStatus.word)) = some (0x0#32, 0x1#32) := by decide

/-- 95_test_vectors.md section 2.1: the impulse. -/
theorem test_fdct_impulse :
    got (exec .fdct { State.reset with blk := oneWord 0 0x00FF0000#32 }) (fun t => (t.coef[9]).toInt) = some 4018907 := by
  decide +kernel

/-- 95_test_vectors.md section 2.2. -/
theorem test_fdct_saturates :
    got (exec .fdct { State.reset with blk := Vector.ofFn fun _ : Fin 64 => 0x7FFFFFFF#32 })
      (fun t => (t.coef[0], t.status.sat)) = some (0x7FFFFFFF#32, true) := by decide +kernel

/-- 95_test_vectors.md section 2.1: a single AC coefficient, along a row and (one unit less) down a column. -/
theorem test_idct_row :
    got (exec .idct { State.reset with coef := oneWord 1 0x00640000#32 })
      (fun t => ((t.blk[1]).toInt, (t.blk[7]).toInt)) = some (963278, -1136263) := by decide +kernel
theorem test_idct_column :
    got (exec .idct { State.reset with coef := oneWord 8 0x00640000#32 }) (fun t => (t.blk[8]).toInt) = some 963277 := by
  decide +kernel

/-- 41_transform.md R116: the round trip does not meet 1e-6. The impulse of 255 comes back with word 1, which was 0, one unit of 2^-16
(1.5e-5) low, by hand from R110, R113 and R114. -/
theorem test_round_trip_is_not_exact :
    (match exec .fdct { State.reset with blk := oneWord 0 0x00FF0000#32 } with
      | .next t => got (exec .idct t) fun u => (u.blk[1]).toInt
      | .fault _ => none
      | .refused _ => none) = some (-1) := by decide +kernel

/-- 95_test_vectors.md section 2.3. -/
theorem test_quant_ties_away :
    got (exec .quant { State.reset with coef := oneWord 0 0xFFF80000#32 }) (fun t => (t.qblk[0]).toInt) = some (-1) := by
  decide +kernel
theorem test_quant_last_divisor :
    got (exec .quant { State.reset with coef := oneWord 63 0x80000000#32 }) (fun t => (t.qblk[63]).toInt) = some (-331) := by
  decide +kernel

/-- 95_test_vectors.md section 2.4. -/
theorem test_dequant_exact_boundary :
    got (exec .dequant { State.reset with qblk := oneWord 0 (BitVec.ofInt 32 (-2048)) })
      (fun t => (t.coef[0], t.status.sat)) = some (0x80000000#32, false) := by decide +kernel
theorem test_dequant_saturates :
    got (exec .dequant { State.reset with qblk := oneWord 63 1365#32 })
      (fun t => (t.coef[63], t.status.sat)) = some (0x7FFFFFFF#32, true) := by decide +kernel

/-- 95_test_vectors.md section 2.5. -/
theorem test_embed_negative :
    got (exec (.embed false) { State.reset with qblk := oneWord 0 (BitVec.ofInt 32 (-3)) })
      (fun t => ((t.qblk[0]).toInt, t.qblk[1])) = some (-4, 0#32) := by decide
theorem test_embed_one :
    got (exec (.embed true) { State.reset with qblk := oneWord 0 0x80000000#32 })
      (fun t => (t.qblk[0]).toInt) = some (-2147483647) := by decide
theorem test_extract :
    got (exec .extract { State.reset with qblk := oneWord 0 (BitVec.ofInt 32 (-3)) }) statusWord = some 0x00000100#32 := by decide

/-- 95_test_vectors.md section 2.6. -/
theorem test_sample_addresses :
    [(16, 3, 0), (16, 3, 8), (16, 3, 63), (16, 11, 63), (20, 3, 8), (20, 3, 63), (24, 9, 0), (24, 9, 8), (24, 9, 63)].map
      (fun x : Nat × Nat × Nat => sampleAddr x.1 x.2.1 x.2.2) = [24, 72, 381, 767, 84, 465, 576, 648, 1101] := by decide

/-- 43_tiler.md R129: BLK takes the byte times 2^16; sample 63 of entry 0 of a 24-wide image is IMG[525]. -/
theorem test_tileLoad :
    got (exec (.tileLoad 0) { small with img := small.img.write 525 7#8 })
      (fun t => (t.blk[62], t.blk[63])) = some (0x00640000#32, 0x00070000#32) := by decide +kernel
/-- 95_test_vectors.md section 2.8. -/
theorem test_tileLoad_size_before_index :
    got (exec (.tileLoad 99) { small with width := 7#16 }) statusWord = some 0x00000012#32 := by decide

/-- 95_test_vectors.md section 2.6: from CLAMP_CNT 0xFFFFFFF0, 64 clamped samples. -/
theorem test_tileStore_counts_clamps :
    got (exec (.tileStore 2) { small with blk := (Vector.ofFn fun _ : Fin 64 => 0x00FF8000#32), clampCnt := 0xFFFFFFF0#32 })
      (fun t => (t.clampCnt, t.intStatus.word, t.img.read 2, t.img.read 1)) =
      some (0xFFFFFFFF#32, 0x3#32, some 255#8, some 100#8) := by decide +kernel
/-- 95_test_vectors.md section 2.6, the conversions. -/
theorem test_sample_conversion :
    [0x00007FFF#32, 0x00008000#32, 0xFFFF8001#32, 0xFFFF8000#32, 0x00FF7FFF#32, 0x00FF8000#32, 0x80000000#32].map toSample =
      [(0#8, false), (1#8, false), (0#8, false), (0#8, true), (255#8, false), (255#8, true), (0#8, true)] := by decide

/-- 95_test_vectors.md section 2.8: capacity before size. -/
theorem test_encode_capacity_before_size :
    got (exec .encode { small with phase := .check, width := 7#16 }) statusWord = some 0x00000022#32 := by decide
/-- 95_test_vectors.md program P1: QBLK[0] of a uniform block of 100s is 50; bit 1 of 0x68 makes it 51. -/
theorem test_encode_entry :
    got (exec .encode (smallLoop 1#32 8 1)) (fun t => (t.qblk[0], t.progress, t.phase)) = some (51#32, 2#32, .loop) := by
  decide +kernel

/-- 95_test_vectors.md section 2.8: size before truncation. -/
theorem test_decode_size_before_truncation :
    got (exec .decode { small with phase := .check, width := 7#16 }) statusWord = some 0x00000012#32 := by decide
/-- 45_codec.md R155: the last bit writes the byte with what was received. -/
theorem test_decode_last_entry :
    got (exec .decode { smallLoop 2#32 3 2 with acc := 0x40#8 }) (fun t => (t.msg.read 0, t.status.lastBit, t.phase)) =
      some (some 0x40#8, false, .idle) := by decide +kernel

/-! ### The host (95_test_vectors.md section 3.6) -/

theorem test_host_little_endian :
    got (hostAccess (write32 0x0010000#25 0x44332211#32) State.reset) (fun t => (t.msg.read 0, t.msg.read 3)) =
      some (some 0x11#8, some 0x44#8) := by decide
theorem test_host_misaligned :
    got (hostAccess { addr := 0x0010001#25, write := true, size := 1#2, wdata := 0#32 } State.reset) (fun t => t.lastResponse) =
      some (some (.write .error)) := by decide
theorem test_host_reads_id :
    got (hostAccess (read32 0x000#25) State.reset) (fun t => t.lastResponse) = some (some (.read .okay 0x44435438#32)) := by decide
theorem test_host_reads_qtab :
    got (hostAccess (read32 0x13FC#25) State.reset) (fun t => t.lastResponse) = some (some (.read .okay 99#32)) := by decide
theorem test_host_read_of_an_unwritten_byte :
    faultOf (hostAccess (read32 0x1000000#25) State.reset) = some (.unwrittenByte .img 0) := by decide
theorem test_capacity_without_fit :
    csrRead .capacity { State.reset with width := 2048#16, height := 1024#16 } = 0x00018000#32 := by decide

/-- 70_reset_and_hazards.md R179: a reset in the middle of ENCODE abandons it, keeps bytes outside its write set, sets no event. -/
theorem test_reset_abandons :
    got (takeTurn .resetLow (smallLoop 1#32 8 1)) (fun t => (t.phase, t.intStatus.word, t.rstN, t.freeCount, t.msg.read 0)) =
      some (.idle, 0#32, false, 512, some 0x68#8) := by decide +kernel

/-! ### Witnesses: states and operands that meet the hypotheses of the statements -/

theorem small_params_valid : smallParams.valid := by decide

theorem small_entryWritten : ∀ i < 9, small.entryWritten i := by
  have h : ∀ i < 9, ∀ k : Fin 64, sampleAddr 24 i k.val < 576 := by decide +kernel
  intro i hi k
  have := filled_read 100#8 (Nat.zero_le _) (show sampleAddr 24 i k.val < 0 + 576 by have := h i hi k; omega)
  exact Option.isSome_iff_exists.mpr ⟨_, this⟩

theorem small_memoriesOk : small.memoriesOk := by
  refine ⟨filled_wf _, fun c hc => ?_, by decide, by decide⟩
  have := filled_ge hc
  simp only [small, smallParams]
  omega

theorem small_geometryOk : small.geometryOk := by decide

/-- The invariant holds of the small machine, idle. -/
theorem small_inv : small.Inv :=
  ⟨small_params_valid, small_memoriesOk, by decide, fun h => by simp [small, State.reset] at h,
    fun h => by simp [small, State.reset] at h, fun h => by simp [small, State.reset] at h⟩

/-- The invariant holds of the small machine with an ENCODE or DECODE accepted, and inside their loops. -/
theorem small_accepted_inv (w : Word) : (accept w small).Inv :=
  ⟨small_params_valid, small_memoriesOk, ⟨⟨fun h => (by cases h), fun h => absurd rfl h⟩, fun _ => rfl⟩, by simp, by simp,
    fun h => by simp [small, State.reset] at h⟩

theorem witness_DecodeOfEncodeIsTheCommand : (Instr.tileStore 16777215).wf = true := by decide

theorem witness_EncodeOfDecodeIsTheWord :
    decode 0xFFFFFF0A#32 = .ok (.tileStore 16777215) ∧ decode 0x00000017#32 = .ok (.embed true) := by decide

theorem witness_OpcodeMapSelectsOneRow :
    (⟨"EMBED", 0x00000007#32, 0xFFFFFFEF#32⟩ : OpcodeRow) ∈ opcodeMap ∧
    (⟨"EMBED", 0x00000007#32, 0xFFFFFFEF#32⟩ : OpcodeRow).selects 0x00000017#32 = true := by decide

theorem witness_IllegalWordsEndWithIllegalCommand :
    decode 0x0000000B#32 = .error .reservedOp ∧ State.reset.busy = false := by decide

theorem witness_StepRunsTheLatchedCommand :
    (accept 3#32 State.reset).rstN = true ∧ (accept 3#32 State.reset).phase ≠ .idle ∧
    decode (accept 3#32 State.reset).latched = .ok .fdct ∧ (accept 3#32 State.reset).schedule = [] ∧
    (State.reset.withFetchWord 32 3).schedule = .engine :: [] := by decide

theorem witness_StepGivesTheHostItsTurn :
    (let s := { State.reset with host := [.access (read32 0#25)] }
     s.rstN = true ∧ s.host = .access (read32 0#25) :: [] ∧ s.schedule = [] ∧ s.phase = .idle) ∧
    (let s := { State.reset with host := [.access (read32 0#25)], schedule := [.host] }
     s.schedule = .host :: [] ∧ s.rstN = true) ∧
    (State.reset.phase = .idle ∧ State.reset.schedule = [] ∧ State.reset.host = []) ∧
    ({ State.reset with schedule := [Turn.engine] }).schedule = .engine :: [] ∧
    (let s := { State.reset with host := [.poll], schedule := [.host] }
     s.rstN = true ∧ s.schedule = .host :: [] ∧ s.host = .poll :: [] ∧ s.phase = .idle) ∧
    (accept 3#32 { State.reset with host := [.poll], schedule := [.host] }).phase ≠ .idle ∧
    (let s := { State.reset with host := [.checkOk], schedule := [.host] }
     s.host = .checkOk :: [] ∧ (statusWord s).extractLsb' 1 7 = 0#7) ∧
    (let s := raiseError .imageTooSmall { State.reset with host := [.checkOk], schedule := [.host] }
     s.host = .checkOk :: [] ∧ s.schedule = .host :: [] ∧ s.rstN = true ∧ (statusWord s).extractLsb' 1 7 ≠ 0#7) := by decide

theorem witness_CmdWriteWhileBusyIsRefused : (accept 1#32 State.reset).busy = true := by decide

theorem witness_CmdWriteWhileIdleIsAccepted : State.reset.busy = false := by decide

theorem witness_NopOnlyCompletes :
    (accept 0x10#32 State.reset).latched = 0x10#32 ∧ (accept 0x10#32 State.reset).phase = .check := by decide

/-- One command that completes, one that fails and one that goes on. -/
theorem witness_CompletionSetsItsEvents :
    (accept 0#32 small).phase ≠ .idle ∧ (accept 0#32 small).status.err = false ∧
    got (exec .nop (accept 0#32 small)) (fun t => decide (t.phase = .idle)) = some true ∧
    got (exec (.tileLoad 9) (accept 0x909#32 small)) (fun t => decide (t.phase = .idle ∧ t.status.err = true)) = some true ∧
    got (exec .encode (accept 1#32 small)) (fun t => decide (t.phase ≠ .idle)) = some true := by decide

theorem witness_ResetGivesEveryRegisterItsValue :
    releaseReset (assertReset small) = releaseReset (assertReset small) ∧
    { State.reset with params := small.params } = { State.reset with params := small.params } := ⟨rfl, rfl⟩

/-- A NOP, and completions that set each of the other bits: a TILE_STORE that clamps, and a command that fails. -/
theorem witness_IntStatusWriteClearsAndTheSetWins :
    (accept 0#32 State.reset).phase = .check ∧ decode (accept 0#32 State.reset).latched = .ok .nop ∧
    got (hostAccess (write32 0x00C#25 7#32) (accept 0#32 State.reset)) (fun _ => true) = some true ∧
    (let s := accept 0x0A#32 { small with blk := oneWord 0 0xFFFF8000#32 }
     s.phase ≠ .idle ∧ s.status.err = false ∧
     got (engineStep { s with intStatus := s.intStatus.clear 7#32 }) (fun t => (t.phase, t.intStatus)) =
       some (.idle, { done := true, warn := true, erri := false })) ∧
    (let s := accept 0x0B#32 small
     s.phase ≠ .idle ∧ s.status.err = false ∧
     got (engineStep { s with intStatus := s.intStatus.clear 7#32 }) (fun t => (t.phase, t.intStatus)) =
       some (.idle, { done := true, warn := false, erri := true })) := by decide +kernel

/-- A step and accesses with the line raised: a command, an illegal word, a read, and a write of another register. -/
theorem witness_InterruptLineIsLevelSensitive :
    (let s := { small with intStatus := { done := true, warn := false, erri := false },
                           intEnable := { done := true, warn := false, erri := false } }
     s.irq = true ∧ got (exec .nop s) (fun _ => true) = some true ∧
     (accept 0x0B#32 s).irq = true ∧ got (engineStep (accept 0x0B#32 s)) (fun _ => true) = some true ∧
     got (hostAccess (read32 0x00C#25) s) (fun _ => true) = some true ∧ (read32 0x00C#25).write = false ∧
     got (hostAccess (write32 0x014#25 8#32) s) (fun _ => true) = some true ∧
     regionOf s.params (0x014#25).toNat = .csr .width) := by decide

theorem witness_OperandRegistersAreWritableWhileIdle :
    State.reset.busy = false ∧ (accept 1#32 State.reset).busy = true ∧
    0x02C#25 ∈ [0x014#25, 0x018#25, 0x01C#25, 0x020#25, 0x02C#25] := by decide

/-- A register of the list, valid parameters, and a step. -/
theorem witness_ReadOnlyRegistersRefuseWrites :
    0x034#25 ∈ [0x000#25, 0x028#25, 0x030#25, 0x034#25] ∧ State.reset.params.valid ∧
    got (step (accept 0#32 State.reset)) (fun _ => true) = some true := by decide

/-- One access for each clause, at the ends of each region; of the memories one whose bytes are written and one that is not. -/
theorem witness_BusyEngineRefusesItsOperandsAndMemories :
    (accept 1#32 small).busy = true ∧ small.busy = false ∧
    [0x000, 0x004, 0x008, 0x00C, 0x010, 0x014, 0x02C, 0x034, 0x1000, 0x10FC, 0x11FC, 0x12FC, 0x1300, 0x13FC, 0x10000, 0x1000000].map
      (fun a => legalShape (regionOf small.params a) (write32 (BitVec.ofNat 25 a) 0#32)) = List.replicate 16 true ∧
    [0x004, 0x008, 0x00C, 0x010, 0x014, 0x018, 0x01C, 0x020, 0x02C, 0x1000, 0x10FC, 0x11FC, 0x12FC, 0x13FC, 0x10000, 0x1000000].map
      (regionOf small.params) =
      [.csr .status, .csr .cmd, .csr .intStatus, .csr .intEnable, .csr .width, .csr .height, .csr .encLen, .csr .decBits,
       .csr .clampCnt, .blk 0, .blk 63, .coef 63, .qblk 63, .qtab 63, .msg 0, .img 0] ∧
    (read32 0x1000000#25).bytes = some 4 ∧ (∀ j < 4, (small.img.read (0 + j)).isSome = true) ∧
    (∃ j < 4, small.msg.read (0 + j) = none) := by decide

/-- A read and a write that are refused, and the write that sets OVR. -/
theorem witness_ErrorResponsesHaveNoEffect :
    got (hostAccess (read32 0x038#25) small) (fun t => t.lastResponse) = some (some (.read .error 0#32)) ∧
    got (hostAccess (write32 0x000#25 1#32) small) (fun t => t.lastResponse) = some (some (.write .error)) ∧
    got (hostAccess (write32 0x008#25 1#32) (accept 1#32 small)) (fun t => t.lastResponse) = some (some (.write .error)) := by
  decide

/-- One access for each way of being illegal, the last word of each memory, and the first reserved offset of each range. -/
theorem witness_IllegalSizesAndOffsetsGetError :
    (3#2 = 3#2 ∧ (0x1000001#25).toNat % 2 ≠ 0 ∧ (0x1000002#25).toNat % 4 ≠ 0) ∧
    (∀ a, regionOf small.params (0x10FC#25).toNat ≠ .msg a ∧ regionOf small.params (0x10FC#25).toNat ≠ .img a) ∧
    (0x038 ≤ (0x038#25).toNat ∧ (0xFFC#25).toNat < 0x1000) ∧
    regionOf small.params (0x10000#25).toNat = .msg 0 ∧ regionOf small.params (0x100023C#25).toNat = .img 572 ∧
    regionOf small.params (0x12FC#25).toNat = .qblk 63 ∧ (0x12FC#25).toNat % 4 = 0 ∧
    small.params.valid ∧ (write32 0x100023C#25 0#32).bytes = some 4 ∧
    legalShape (regionOf small.params (0x100023C#25).toNat) (write32 0x100023C#25 0#32) = true ∧
    [0x038, 0xFFC, 0x1400, 0xFFFC, 0x10004, 0xFFFFFC, 0x1000240, 0x1FFFFFC].map (regionOf small.params) =
      List.replicate 8 .reserved ∧
    3 < small.params.msgBytes ∧ 575 < small.params.imgBytes := by
  refine ⟨by decide, fun a => ⟨by simp [regionOf], by simp [regionOf]⟩, by decide, by decide, by decide,
    by decide, by decide, small_params_valid, by decide, by decide, by decide, by decide, by decide⟩

/-- A read and a write of 1, 2 and 4 bytes at the ends of IMG, and of MSG, with the bytes read written. -/
theorem witness_MemoryAccessesAreLittleEndian :
    small.busy = false ∧
    ([(0x1000000, 0), (0x100023F, 0), (0x100023E, 1), (0x100023C, 2), (0x10000, 0), (0x10000, 1), (0x10000, 2)].map
      fun x : Nat × Nat =>
        let t : Transaction := { addr := BitVec.ofNat 25 x.1, write := false, size := BitVec.ofNat 2 x.2, wdata := 0#32 }
        (t.bytes, legalShape (regionOf small.params t.addr.toNat) t)) =
      [(some 1, true), (some 1, true), (some 2, true), (some 4, true), (some 1, true), (some 2, true), (some 4, true)] ∧
    regionOf small.params 0x100023C = .img 572 ∧ regionOf small.params 0x10000 = .msg 0 ∧
    (∀ j < 4, (small.img.read (572 + j)).isSome = true) ∧ (∀ j < 1, (small.msg.read (0 + j)).isSome = true) := by
  decide +kernel

/-- An unwritten byte for each clause: the host's reads, TILE_LOAD, ENCODE's message byte and block, DECODE's block. -/
theorem witness_UnwrittenBytesFault :
    (let s := { small with img := [] }
     s.busy = false ∧ (read32 0x1000000#25).bytes = some 4 ∧
     legalShape (regionOf s.params (0x1000000#25).toNat) (read32 0x1000000#25) = true ∧
     regionOf s.params (0x1000000#25).toNat = .img 0 ∧ (∃ j < 4, s.img.read (0 + j) = none) ∧
     tileCheck 0 s = .noError ∧ ¬ s.entryWritten 0) ∧
    (regionOf small.params (0x10000#25).toNat = .msg 0 ∧ ∃ j < 4, small.msg.read (0 + j) = none) ∧
    (let s := { smallLoop 1#32 8 0 with msg := [] }
     s.phase = .loop ∧ s.msg.read (s.i / 8) = none) ∧
    (let s := { smallLoop 1#32 8 0 with img := [] }
     s.phase = .loop ∧ (s.msg.read (s.i / 8)).isSome = true ∧ ¬ s.entryWritten s.i) := by decide

theorem witness_TheDcPathIsExact :
    (∀ k : Fin 64, k ≠ 0 → (oneWord 0 0x7FFFFFFF#32)[k] = 0#32) ∧
    ((oneWord 0 0x7FFFFFFF#32)[0]).toInt = sat32 (2048 * 16 * 2 ^ 16) ∧
    ((oneWord 0 0x80000000#32)[0]).toInt = sat32 (-2048 * 16 * 2 ^ 16) := by decide +kernel

theorem witness_FdctThenIdctReturnsTheBlock :
    (∀ k : Fin 64, |(({ small with blk := oneWord 63 0xFF010000#32 } : State).blk[k]).toInt| ≤ 255 * 2 ^ 16) ∧
    small.img.wf ∧ small.geometryOk ∧ 8 < small.height.toNat / 8 * (small.width.toNat / 8) * 3 ∧ small.entryWritten 8 :=
  ⟨by decide, filled_wf _, small_geometryOk, by decide, small_entryWritten 8 (by decide)⟩

theorem witness_QuantRoundsToNearestTiesAway : State.reset.params.valid ∧ small.params.valid := by decide

theorem witness_DequantThenQuantReturnsTheWord :
    small.params.valid ∧
    (let s := { small with qblk := oneWord 63 330#32 }
     |(s.qblk[63]).toInt * ((s.params.qtab[63]).toNat : Int)| < 2 ^ 15) := by
  refine ⟨small_params_valid, ?_⟩
  have h1 : ((oneWord 63 330#32)[63]).toInt = 330 := by decide
  have h2 : (small.params.qtab[63]).toNat = 99 := by decide
  simp only [h1, h2]
  decide

theorem witness_SampleAddressesTileTheImage :
    (8 ≤ 17 ∧ 8 ≤ 9 ∧ 5 < 9 / 8 * (17 / 8) * 3 ∧ sampleAddr 17 5 63 = 3 * (7 * 17 + 15) + 2) ∧ 8 < 9 ∧ 16 < 17 := by decide

theorem witness_TileLoadLoadsTheEntry :
    small.geometryOk ∧ 8 < small.height.toNat / 8 * (small.width.toNat / 8) * 3 ∧ small.entryWritten 8 ∧
    small.img.read (sampleAddr small.width.toNat 8 63) = some 100#8 :=
  ⟨small_geometryOk, by decide, small_entryWritten 8 (by decide), by decide +kernel⟩

theorem witness_TileStoreStoresTheEntry :
    small.geometryOk ∧ 8 < small.height.toNat / 8 * (small.width.toNat / 8) * 3 := by decide

/-- One geometry for each check, at its boundary, and the first index out of range. -/
theorem witness_TileCommandsCheckInOrder :
    (let s := { small with width := 25#16 }; s.width.toNat * s.height.toNat * 3 > s.params.imgBytes) ∧
    (let s := { small with width := 7#16 }; s.width.toNat * s.height.toNat * 3 ≤ s.params.imgBytes ∧ s.width.toNat < 8) ∧
    (let s := { small with height := 7#16 }; s.width.toNat * s.height.toNat * 3 ≤ s.params.imgBytes ∧ s.height.toNat < 8) ∧
    (small.geometryOk ∧ 9 ≥ small.height.toNat / 8 * (small.width.toNat / 8) * 3) := by decide

/-- A word at each end of each interval. -/
theorem witness_SamplesRoundThenClamp :
    (0x80000000#32).toInt ≤ -32768 ∧ (0xFFFF8000#32).toInt ≤ -32768 ∧
    (-32768 < (0xFFFF8001#32).toInt ∧ (0xFFFF8001#32).toInt < 255 * 65536 + 32768) ∧
    (-32768 < (0x00FF7FFF#32).toInt ∧ (0x00FF7FFF#32).toInt < 255 * 65536 + 32768) ∧
    255 * 65536 + 32768 ≤ (0x00FF8000#32).toInt ∧ 255 * 65536 + 32768 ≤ (0x7FFFFFFF#32).toInt := by decide

theorem witness_TileLoadThenTileStoreIsLossless :
    small.img.wf ∧ small.geometryOk ∧ 0 < small.height.toNat / 8 * (small.width.toNat / 8) * 3 ∧ small.entryWritten 0 :=
  ⟨small_memoriesOk.1, small_geometryOk, by decide, small_entryWritten 0 (by decide)⟩

theorem witness_PayloadBitsAreMsbFirst : small.msg.read (7 / 8) = some 0x68#8 := by decide

/-- One state for each check, at its boundary, and the two ways of passing them. -/
theorem witness_EncodeChecksThenInitialises :
    (let s := { accept 1#32 small with width := 25#16 }
     s.phase = .check ∧ s.width.toNat * s.height.toNat * 3 > s.params.imgBytes) ∧
    (let s := { accept 1#32 small with encLen := 2#32 }
     s.phase = .check ∧ s.width.toNat * s.height.toNat * 3 ≤ s.params.imgBytes ∧
     8 * s.encLen.toNat > s.height.toNat / 8 * (s.width.toNat / 8) * 3) ∧
    (let s := { accept 1#32 small with encLen := 0#32, width := 7#16 }
     s.phase = .check ∧ s.width.toNat * s.height.toNat * 3 ≤ s.params.imgBytes ∧
     8 * s.encLen.toNat ≤ s.height.toNat / 8 * (s.width.toNat / 8) * 3 ∧ s.width.toNat < 8) ∧
    (let s := accept 1#32 small
     s.phase = .check ∧ s.geometryOk ∧ 8 * s.encLen.toNat ≤ s.height.toNat / 8 * (s.width.toNat / 8) * 3 ∧ s.encLen.toNat ≠ 0) ∧
    (let s := { accept 1#32 small with encLen := 0#32 }
     s.phase = .check ∧ s.geometryOk ∧ s.encLen.toNat = 0) := by decide

/-- An entry inside the loop and the last entry. -/
theorem witness_EncodeEmbedsOneEntryPerStep (i : Nat) (h : i = 0 ∨ i = 7) :
    (smallLoop 1#32 8 i).phase = .loop ∧ 8 ≤ (smallLoop 1#32 8 i).width.toNat ∧
    (smallLoop 1#32 8 i).msg.read ((smallLoop 1#32 8 i).i / 8) = some 0x68#8 ∧
    (smallLoop 1#32 8 i).entryWritten (smallLoop 1#32 8 i).i :=
  ⟨rfl, by show 8 ≤ (24#16).toNat; decide, by rcases h with rfl | rfl <;> decide, small_entryWritten i (by omega)⟩

/-- One state for each check, at its boundary, and the two ways of passing them. -/
theorem witness_DecodeChecksThenInitialises :
    (let s := { accept 2#32 small with width := 25#16 }
     s.phase = .check ∧ s.width.toNat * s.height.toNat * 3 > s.params.imgBytes) ∧
    (let s := { accept 2#32 small with height := 7#16 }
     s.phase = .check ∧ s.width.toNat * s.height.toNat * 3 ≤ s.params.imgBytes ∧ s.height.toNat < 8) ∧
    (let s := { accept 2#32 small with decBits := 10#32 }
     s.phase = .check ∧ s.geometryOk ∧ s.decBits.toNat > s.height.toNat / 8 * (s.width.toNat / 8) * 3) ∧
    (let s := accept 2#32 small
     s.phase = .check ∧ s.geometryOk ∧ s.decBits.toNat ≤ s.height.toNat / 8 * (s.width.toNat / 8) * 3 ∧ s.decBits.toNat ≠ 0) ∧
    (let s := { accept 2#32 small with decBits := 0#32 }
     s.phase = .check ∧ s.geometryOk ∧ s.decBits.toNat = 0) := by decide

/-- An entry inside the loop, one that completes a byte, and the last one. -/
theorem witness_DecodeExtractsOneEntryPerStep (i : Nat) (h : i = 0 ∨ i = 7 ∨ i = 8) :
    (smallLoop 2#32 9 i).phase = .loop ∧ (smallLoop 2#32 9 i).entryWritten (smallLoop 2#32 9 i).i :=
  ⟨rfl, small_entryWritten i (by omega)⟩

theorem witness_TheStageCommandsEqualOneEncodeStep :
    (smallLoop 1#32 8 1).phase = .loop ∧ (smallLoop 1#32 8 1).geometryOk ∧
    (smallLoop 1#32 8 1).i < (smallLoop 1#32 8 1).capacity ∧
    (smallLoop 1#32 8 1).msg.read ((smallLoop 1#32 8 1).i / 8) = some 0x68#8 ∧
    (smallLoop 1#32 8 1).entryWritten (smallLoop 1#32 8 1).i :=
  ⟨rfl, small_geometryOk, by decide, by decide, small_entryWritten 1 (by decide)⟩

/-- An ENCODE of one byte, accepted by the small machine. -/
theorem witness_EncodeCompletesInOnePlusNSteps :
    (accept 1#32 small).Inv ∧ (accept 1#32 small).accepted .encode ∧ encodeCheck (accept 1#32 small) = .noError ∧
    (accept 1#32 small).messageWritten (accept 1#32 small).encLen.toNat ∧
    (accept 1#32 small).entriesWritten (8 * (accept 1#32 small).encLen.toNat) ∧
    9 ≤ ((accept 1#32 small).params.qtab[0]).toNat :=
  ⟨small_accepted_inv _, by decide, by decide, by decide,
    fun i hi => small_entryWritten i (by have : i < 8 * (1#32).toNat := hi; simp at this; omega), by decide⟩

/-- A DECODE of nine bits, the capacity, accepted by the small machine. -/
theorem witness_DecodeReturnsTheParitiesOfTheEntries :
    (accept 2#32 small).Inv ∧ (accept 2#32 small).accepted .decode ∧ decodeCheck (accept 2#32 small) = .noError ∧
    (accept 2#32 small).entriesWritten (accept 2#32 small).decBits.toNat :=
  ⟨small_accepted_inv _, by decide, by decide,
    fun i hi => small_entryWritten i (by have : i < (9#32).toNat := hi; simpa using this)⟩

/-- A block of samples 100. -/
abbrev hundreds : Block := Vector.ofFn fun _ : Fin 64 => sampleWord 100#8

/-- A uniform block of 100s with bit 1 embedded is a uniform block of 102s: no sample is clamped (95_test_vectors.md P1). -/
theorem witness_AnUnclampedBlockKeepsItsBit :
    9 ≤ (smallParams.qtab[0]).toNat ∧ ∀ k : Fin 64, (toSample (stegoBlock smallParams hundreds true)[k]).2 = false := by
  decide +kernel

/-- The small machine in ENCODE's loop before entry `i`, the entries from `i` on still all 100s, all eight payload bits 1. -/
structure Uniform (s : State) (i : Nat) : Prop where
  rstN : s.rstN = true
  sched : s.schedule = []
  phase : s.phase = .loop
  word : decode s.latched = .ok .encode
  params : s.params = smallParams
  width : s.width = 24#16
  msg : s.msg.read 0 = some 0xFF#8
  n : s.n = 8
  entry : s.i = i
  clamps : s.clampCnt = 0#32
  img : ∀ j, i ≤ j → j < 9 → ∀ k : Fin 64, s.img.read (sampleAddr 24 j k.val) = some 100#8

theorem uniform_step {s : State} {i : Nat} (hi : i < 8) (h : Uniform s i) :
    ∃ t, step s = .next t ∧ t.clampCnt = 0#32 ∧ (i = 7 → t.phase = .idle) ∧ (i ≠ 7 → Uniform t (i + 1)) := by
  have hw : s.width.toNat = 24 := by rw [h.width]; rfl
  have hread : s.msg.read (s.i / 8) = some 0xFF#8 := by rw [h.entry, Nat.div_eq_of_lt hi]; exact h.msg
  have hent : s.entryWritten s.i := fun k => by rw [hw, h.entry, h.img i (Nat.le_refl _) (by omega) k]; rfl
  have hblk : loadedBlock s.img s.width.toNat s.i = hundreds := by
    simp only [loadedBlock, hundreds]
    refine congrArg Vector.ofFn (funext fun k => ?_)
    rw [hw, h.entry, h.img i (Nat.le_refl _) (by omega) k, Option.getD_some]
  have hbit : payloadBitOf 0xFF#8 s.i = true := by
    have : ∀ i < 8, payloadBitOf 0xFF#8 i = true := by decide
    rw [h.entry]; exact this i hi
  have hstep : step s = .next (advance (encodeBlock true s.i { s with blk := hundreds })) := by
    have : step s = endWith (encodeEntry s) advance := by
      simp [step, interleave, h.sched, defaultTurn, State.busy, h.phase, takeTurn, h.rstN, engineStep, h.word, exec, execEncode]
    rw [this, encodeEntry_of_written hread hent, hbit, hblk]; rfl
  rw [hstep]
  generalize hv : idctBody (dequantBody (embedBody true (quantBody (fdctBody { s with blk := hundreds })))) = v
  have hvb : v.blk = stegoBlock s.params hundreds true := by subst hv; simp [stegoBlock]
  have hclamps : clampsOf v.blk = 0 := by
    have := witness_AnUnclampedBlockKeepsItsBit.2
    rw [hvb, h.params]
    simp only [clampsOf, List.countP_eq_zero]
    intro k _; rw [this k]; decide
  have henc : encodeBlock true s.i { s with blk := hundreds } = { v with img := v.img.writeAll (storedSamples v.width.toNat s.i v.blk) } := by
    show tileStoreBody s.i (idctBody _) = _
    rw [hv]
    simp [tileStoreBody, countClamps, hclamps]
  rw [henc]
  have hf : v.rstN = s.rstN ∧ v.schedule = s.schedule ∧ v.phase = s.phase ∧ v.latched = s.latched ∧ v.params = s.params ∧
      v.width = s.width ∧ v.msg = s.msg ∧ v.n = s.n ∧ v.i = s.i ∧ v.clampCnt = s.clampCnt ∧ v.img = s.img := by
    subst hv; simp
  obtain ⟨f1, f2, f3, f4, f5, f6, f7, f8, f9, f10, f11⟩ := hf
  rcases advance_cases { v with img := v.img.writeAll (storedSamples v.width.toNat s.i v.blk) } with ⟨g1, g2⟩ | ⟨g1, g2⟩
  all_goals
    rw [g2]
    simp only [f8, f9, h.n, h.entry] at g1
    refine ⟨_, rfl, by simpa using f10.trans h.clamps, fun h7 => ?_, fun h7 => ?_⟩
  · rfl
  · omega
  · omega
  · refine ⟨f1.trans h.rstN, f2.trans h.sched, f3.trans h.phase, f4 ▸ h.word, f5.trans h.params, f6.trans h.width, f7 ▸ h.msg,
      f8.trans h.n, by simp [f9, h.entry], f10.trans h.clamps, fun j hj hj9 k => ?_⟩
    simp only [f6, f11, hw]
    rw [Memory.read_writeAll_of_notMem, h.img j (by omega) hj9 k]
    intro x hx
    obtain ⟨k', rfl⟩ := mem_storedSamples.mp hx
    have := k.isLt; have := k'.isLt
    simp only [sampleAddr, h.entry]
    omega

/-- The small machine with the message byte 0xFF and ENCODE accepted. -/
def smallOnes : State := accept 1#32 { small with msg := [(0, 0xFF#8)] }

theorem smallOnes_inv : smallOnes.Inv :=
  ⟨small_params_valid, ⟨small_memoriesOk.1, small_memoriesOk.2.1, by decide, by decide⟩,
    ⟨⟨fun h => (by cases h), fun h => absurd rfl h⟩, fun _ => rfl⟩, by simp [smallOnes], by simp [smallOnes],
    fun h => by simp [smallOnes, small, State.reset] at h⟩

/-- The check step of that ENCODE leaves the loop before entry 0. -/
theorem smallOnes_checked : ∃ t, step smallOnes = .next t ∧ Uniform t 0 := by
  have hc : encodeCheck smallOnes = .noError := by decide
  have hs : step smallOnes = encodeStart smallOnes := by
    have h : smallOnes.schedule = [] ∧ smallOnes.phase = .check ∧ smallOnes.rstN = true ∧ decode smallOnes.latched = .ok .encode := by
      decide
    simp [step, interleave, h, defaultTurn, State.busy, takeTurn, engineStep, exec, execEncode]
  refine ⟨startLoop 8 { smallOnes with clampCnt := 0#32 }, by rw [hs, encodeStart, if_pos hc]; rfl, ?_⟩
  refine ⟨rfl, rfl, rfl, by decide, rfl, rfl, rfl, rfl, rfl, rfl, fun j _ hj k => ?_⟩
  refine filled_read 100#8 (Nat.zero_le _) ?_
  have := k.isLt
  simp only [sampleAddr]
  omega

theorem run_succ {s t : State} (n : Nat) (h : step s = .next t) :
    Host.Core.run Sys2Proof.core (n + 1) s = Host.Core.run Sys2Proof.core n t := by
  simp only [Host.Core.run, Sys2Proof.core, h]

/-- Nine steps run that ENCODE: its check, and its eight entries, none of which is clamped. -/
theorem smallOnes_run : ∃ t : State, Host.Core.run Sys2Proof.core 9 smallOnes = .next t ∧ t.clampCnt = 0#32 := by
  obtain ⟨t0, s0, u0⟩ := smallOnes_checked
  obtain ⟨t1, s1, -, -, u1⟩ := uniform_step (by decide) u0
  obtain ⟨t2, s2, -, -, u2⟩ := uniform_step (by decide) (u1 (by decide))
  obtain ⟨t3, s3, -, -, u3⟩ := uniform_step (by decide) (u2 (by decide))
  obtain ⟨t4, s4, -, -, u4⟩ := uniform_step (by decide) (u3 (by decide))
  obtain ⟨t5, s5, -, -, u5⟩ := uniform_step (by decide) (u4 (by decide))
  obtain ⟨t6, s6, -, -, u6⟩ := uniform_step (by decide) (u5 (by decide))
  obtain ⟨t7, s7, -, -, u7⟩ := uniform_step (by decide) (u6 (by decide))
  obtain ⟨t8, s8, c8, -, -⟩ := uniform_step (by decide) (u7 (by decide))
  generalize smallOnes = s at s0
  refine ⟨t8, ?_, c8⟩
  rw [run_succ 8 s0, run_succ 7 s1, run_succ 6 s2, run_succ 5 s3, run_succ 4 s4, run_succ 3 s5, run_succ 2 s6, run_succ 1 s7,
    run_succ 0 s8]
  rfl

/-- An ENCODE of one byte, and that it completes with CLAMP_CNT = 0: each of its eight blocks of 100s takes the bit 1. -/
theorem witness_DecodeOfEncodeReturnsTheMessage :
    (smallOnes.Inv ∧ smallOnes.accepted .encode ∧ encodeCheck smallOnes = .noError ∧
      smallOnes.messageWritten smallOnes.encLen.toNat ∧ smallOnes.entriesWritten (8 * smallOnes.encLen.toNat) ∧
      9 ≤ (smallOnes.params.qtab[0]).toNat) ∧
    ∃ t : State, Host.Core.run Sys2Proof.core (1 + 8 * smallOnes.encLen.toNat) smallOnes = .next t ∧ t.clampCnt = 0#32 := by
  refine ⟨⟨smallOnes_inv, by decide, by decide, by decide,
    fun i hi => small_entryWritten i (by have : i < 8 * (1#32).toNat := hi; simp at this; omega), by decide⟩, ?_⟩
  have h9 : 1 + 8 * smallOnes.encLen.toNat = 9 := by decide
  rw [h9]
  exact smallOnes_run

theorem witness_CommandsChangeOnlyTheirRegisters :
    got (exec .nop small) (fun _ => true) = some true ∧ got (exec (.embed true) small) (fun _ => true) = some true ∧
    ({ small with status := { small.status with sat := true } }).status.sat = true := by decide

theorem witness_CommandsStoreOnlyTheirBytes :
    got (exec (.tileStore 0) small) (fun _ => true) = some true ∧ (∀ k : Fin 64, 1 ≠ sampleAddr small.width.toNat 0 k) := by
  decide +kernel

/-- A state in which bytes of IMG could have been written, one for MSG, and one for neither. -/
theorem witness_ResetAbandonsTheRunningCommand :
    (let s := smallLoop 1#32 8 1
     s.phase ≠ .idle ∧ decode s.latched = .ok .encode ∧ encodeCheck s = .noError ∧
     ∃ i < 8 * s.encLen.toNat, 0 ∈ entryAddrs s.width.toNat i) ∧
    (let s := accept 0x80A#32 small
     s.phase ≠ .idle ∧ decode s.latched = .ok (.tileStore 8) ∧ tileCheck 8 s = .noError ∧ 50 ∈ entryAddrs s.width.toNat 8) ∧
    (let s := smallLoop 2#32 9 1
     s.phase ≠ .idle ∧ decode s.latched = .ok .decode ∧ decodeCheck s = .noError ∧ 1 < ceil8 s.decBits.toNat) ∧
    small.phase = .idle := by decide

theorem witness_NothingMovesInReset : small.phase = .idle ∧ (assertReset small).rstN = false := by decide

/-- A step from a state with the invariant: the host's, and the engine's. -/
theorem witness_EveryStepKeepsTheInvariant :
    small.Inv ∧ got (step small) (fun _ => true) = some true ∧
    (accept 1#32 small).Inv ∧ got (step (accept 1#32 small)) (fun t => decide (t.phase = .loop)) = some true :=
  ⟨small_inv, by decide, small_accepted_inv _, by decide⟩

theorem witness_TheEngineFaultsOnlyOnUnwrittenBytes :
    small.Inv ∧ (accept 9#32 { State.reset with width := 8#16, height := 8#16 }).Inv ∧
    faultOf (engineStep (accept 9#32 { State.reset with width := 8#16, height := 8#16 })) = some (.unwrittenByte .img 0) :=
  ⟨small_inv, by decide, by decide⟩

end Sys2Proof.Tests
end

section
/-! The register file as the host sees it (10_state.md): the access rules of a register and of QTAB, what a host access and
an engine step can change, and the statements about STATUS, INT_ENABLE, the interrupt line and the registers. -/

namespace Sys2Proof.Machine

/-! ### The registers at their offsets (10_state.md R26) -/

/-- The offset of a register (10_state.md R26). -/
def csrOffset : Csr → Offset
  | .id => 0x000#25
  | .status => 0x004#25
  | .cmd => 0x008#25
  | .intStatus => 0x00C#25
  | .intEnable => 0x010#25
  | .width => 0x014#25
  | .height => 0x018#25
  | .encLen => 0x01C#25
  | .decBits => 0x020#25
  | .capacity => 0x024#25
  | .progress => 0x028#25
  | .clampCnt => 0x02C#25
  | .imgSize => 0x030#25
  | .msgSize => 0x034#25

theorem csrOffset_spec (c : Csr) :
    (csrOffset c).toNat < 0x1000 ∧ (csrOffset c).toNat % 4 = 0 ∧ csrAt ((csrOffset c).toNat / 4) = .csr c := by
  cases c <;> decide

/-- A 4-byte read of a register answers OKAY and its value, at any time. -/
theorem read32_csr (c : Csr) (s : State) :
    hostAccess (read32 (csrOffset c)) s = .next { s with lastResponse := some (.read .okay (csrRead c s)) } :=
  have ⟨hlt, halign, hat⟩ := csrOffset_spec c
  hostAccess_read32_csr s hlt halign hat

/-- A 4-byte write of a register leaves what `csrWrite` says. -/
theorem write32_csr {c : Csr} {v : Word} {s t : State} {r : Resp} (h : csrWrite c v s = (t, r)) :
    hostAccess (write32 (csrOffset c) v) s = .next { t with lastResponse := some (.write r) } := by
  obtain ⟨hlt, halign, hat⟩ := csrOffset_spec c
  rw [hostAccess_write32_csr v s hlt halign hat, h]

theorem whileIdle_of_idle {s : State} (h : s.busy = false) (s' : State) : whileIdle s s' = (s', .okay) := by
  simp [whileIdle, h]

theorem whileIdle_of_busy {s : State} (h : s.busy = true) (s' : State) : whileIdle s s' = (s, .error) := by
  simp [whileIdle, h]

/-! ### The divisors at their offsets (10_state.md R50) -/

/-- The offset of `QTAB[k]` (10_state.md R50). -/
abbrev qtabOffset (k : Fin 64) : Offset := BitVec.ofNat 25 (0x1300 + 4 * k)

theorem qtabOffset_toNat (k : Fin 64) : (qtabOffset k).toNat = 0x1300 + 4 * k.val := by
  simp only [BitVec.toNat_ofNat]; omega

theorem regionOf_qtabOffset (p : Params) (k : Fin 64) : regionOf p (qtabOffset k).toNat = .qtab k := by
  have hk : (0x1300 + 4 * k.val - 0x1300) / 4 = k.val := by omega
  rw [qtabOffset_toNat, regionOf, if_neg (by omega), dif_neg (by omega), dif_neg (by omega), dif_neg (by omega),
    dif_pos (by omega)]
  simp only [hk]

theorem legalShape_qtab {x : Transaction} {k : Fin 64} (haddr : x.addr = qtabOffset k) (hsize : x.size = 2#2) :
    legalShape (.qtab k) x = true := by
  have halign : (0x1300 + 4 * k.val) % 4 = 0 := by omega
  simp [legalShape, Transaction.bytes, hsize, haddr, halign]

/-- A 4-byte read of `QTAB[k]` answers OKAY and the divisor, zero-extended, at any time. -/
theorem read32_qtab (k : Fin 64) (s : State) :
    hostAccess (read32 (qtabOffset k)) s =
      .next { s with lastResponse := some (.read .okay (s.params.qtab[k].setWidth 32)) } := by
  have hl := legalShape_qtab (x := read32 (qtabOffset k)) rfl rfl
  simp only [hostAccess, busRead, regionOf_qtabOffset, hl, if_true]
  rfl

/-- A 4-byte write of `QTAB[k]` is refused, at any time. -/
theorem write32_qtab (k : Fin 64) (v : Word) (s : State) :
    hostAccess (write32 (qtabOffset k) v) s = .next { s with lastResponse := some (.write .error) } := by
  have hl := legalShape_qtab (x := write32 (qtabOffset k) v) rfl rfl
  simp only [hostAccess, busWrite, regionOf_qtabOffset, hl, if_true]

/-! ### What a host access can change -/

/-- A field that the idle state `s'` shares with `s` is kept by a write, performed or refused. -/
theorem whileIdle_keeps {α : Type} (f : State → α) {s s' : State} (h : f s' = f s) : f (whileIdle s s').1 = f s := by
  rcases whileIdle_cases s s' with ⟨-, hw⟩ | ⟨-, hw⟩ <;> simp [hw, h]

/-- `t` is `s` but for what the block buffers and the byte memories hold. -/
def SameButStorage (s t : State) : Prop :=
  ∃ blk coef qblk img msg, t = { s with blk := blk, coef := coef, qblk := qblk, img := img, msg := msg }

theorem SameButStorage.refl (s : State) : SameButStorage s s := ⟨_, _, _, _, _, rfl⟩

theorem SameButStorage.whileIdle {s s' : State} (h : SameButStorage s s') : SameButStorage s (whileIdle s s').1 := by
  rcases whileIdle_cases s s' with ⟨-, hw⟩ | ⟨-, hw⟩ <;> rw [hw]
  · exact .refl s
  · exact h

/-- A host write does what `csrWrite` says of the register it addresses, or changes no register at all. -/
theorem busWrite_cases (x : Transaction) (s : State) :
    (∃ c, regionOf s.params x.addr.toNat = .csr c ∧ (busWrite x s).1 = (csrWrite c x.wdata s).1) ∨
    SameButStorage s (busWrite x s).1 := by
  by_cases hl : legalShape (regionOf s.params x.addr.toNat) x = true
  · simp only [busWrite, hl, if_true]
    generalize regionOf s.params x.addr.toNat = r
    cases r with
    | csr c => exact .inl ⟨c, rfl, rfl⟩
    | qtab k => exact .inr (.refl s)
    | reserved => exact .inr (.refl s)
    | blk k => exact .inr (SameButStorage.whileIdle ⟨_, _, _, _, _, rfl⟩)
    | coef k => exact .inr (SameButStorage.whileIdle ⟨_, _, _, _, _, rfl⟩)
    | qblk k => exact .inr (SameButStorage.whileIdle ⟨_, _, _, _, _, rfl⟩)
    | msg j => exact .inr (SameButStorage.whileIdle ⟨_, _, _, _, _, rfl⟩)
    | img a => exact .inr (SameButStorage.whileIdle ⟨_, _, _, _, _, rfl⟩)
  · rw [busWrite, if_neg hl]
    exact .inr (.refl s)

/-- A host access leaves the state of its write, or for a read the state it found, with the answer on the bus ports. -/
theorem hostAccess_cases {x : Transaction} {s t : State} (h : hostAccess x s = .next t) :
    (x.write = true ∧ t = { (busWrite x s).1 with lastResponse := some (.write (busWrite x s).2) }) ∨
    (x.write = false ∧ ∃ r d, t = { s with lastResponse := some (.read r d) }) := by
  unfold hostAccess at h
  split at h
  · rename_i hw
    exact .inl ⟨hw, by simpa using h.symm⟩
  · rename_i hw
    split at h
    · rename_i r d _
      exact .inr ⟨by simpa using hw, r, d, by simpa using h.symm⟩
    · cases h

@[simp] theorem csrWrite_params (c : Csr) (v : Word) (s : State) : (csrWrite c v s).1.params = s.params := by
  cases c <;> simp [csrWrite, whileIdle_keeps State.params, apply_ite]

/-- Only a write of INT_STATUS changes the pending events (10_state.md R35). -/
theorem csrWrite_intStatus {c : Csr} (hc : c ≠ .intStatus) (v : Word) (s : State) :
    (csrWrite c v s).1.intStatus = s.intStatus := by
  cases c <;> simp [csrWrite, whileIdle_keeps State.intStatus, apply_ite] at hc ⊢

/-- Only a write of INT_ENABLE changes the enables (10_state.md R36). -/
theorem csrWrite_intEnable {c : Csr} (hc : c ≠ .intEnable) (v : Word) (s : State) :
    (csrWrite c v s).1.intEnable = s.intEnable := by
  cases c <;> simp [csrWrite, whileIdle_keeps State.intEnable, apply_ite] at hc ⊢

theorem hostAccess_params {x : Transaction} {s t : State} (h : hostAccess x s = .next t) : t.params = s.params := by
  rcases hostAccess_cases h with ⟨-, rfl⟩ | ⟨-, r, d, rfl⟩
  · rcases busWrite_cases x s with ⟨c, -, hb⟩ | ⟨_, _, _, _, _, hb⟩ <;> simp [hb]
  · rfl

/-! ### What an engine step can change (40_command.md R94 to R96) -/

/-- What the body of a command leaves unchanged: everything but CLAMP_CNT, PROGRESS, the buffers, SAT and LASTBIT, the hidden
state of the running command, IMG and MSG. -/
structure BodyFrame (s u : State) : Prop where
  params : u.params = s.params
  err : u.status.err = s.status.err
  errCode : u.status.errCode = s.status.errCode
  ovr : u.status.ovr = s.status.ovr
  intStatus : u.intStatus = s.intStatus
  intEnable : u.intEnable = s.intEnable
  width : u.width = s.width
  height : u.height = s.height
  encLen : u.encLen = s.encLen
  decBits : u.decBits = s.decBits
  latched : u.latched = s.latched
  rstN : u.rstN = s.rstN
  lastResponse : u.lastResponse = s.lastResponse
  host : u.host = s.host
  schedule : u.schedule = s.schedule
  freeCount : u.freeCount = s.freeCount

/-- One step of a command in state `s` leads to `t`: the state `u` that the command's body leaves, or the completion of the
command, with or without an error, in that state. -/
def CommandStep (s t : State) : Prop := ∃ u, BodyFrame s u ∧ (t = u ∨ ∃ e, t = complete e u)

theorem BodyFrame.refl (s : State) : BodyFrame s s := by constructor <;> rfl

theorem BodyFrame.running {s u : State} (h : BodyFrame s u) : CommandStep s u := ⟨u, h, .inl rfl⟩

theorem BodyFrame.completed {s u : State} (h : BodyFrame s u) (e : ErrorCode) : CommandStep s (complete e u) :=
  ⟨u, h, .inr ⟨e, rfl⟩⟩

theorem BodyFrame.startLoop {s u : State} (h : BodyFrame s u) (n : Nat) : CommandStep s (startLoop n u) := by
  rcases startLoop_cases n u with ⟨-, ht⟩ | ⟨-, ht⟩ <;> rw [ht]
  · refine completed ?_ _
    exact { h with }
  · exact running { h with }

theorem BodyFrame.advance {s u : State} (h : BodyFrame s u) : CommandStep s (advance u) := by
  rcases advance_cases u with ⟨-, ht⟩ | ⟨-, ht⟩ <;> rw [ht]
  · refine completed ?_ _
    exact { h with }
  · exact running { h with }

theorem BodyFrame.trans {s u t : State} (h : BodyFrame s u) (h' : BodyFrame u t) : BodyFrame s t where
  params := h'.params.trans h.params
  err := h'.err.trans h.err
  errCode := h'.errCode.trans h.errCode
  ovr := h'.ovr.trans h.ovr
  intStatus := h'.intStatus.trans h.intStatus
  intEnable := h'.intEnable.trans h.intEnable
  width := h'.width.trans h.width
  height := h'.height.trans h.height
  encLen := h'.encLen.trans h.encLen
  decBits := h'.decBits.trans h.decBits
  latched := h'.latched.trans h.latched
  rstN := h'.rstN.trans h.rstN
  lastResponse := h'.lastResponse.trans h.lastResponse
  host := h'.host.trans h.host
  schedule := h'.schedule.trans h.schedule
  freeCount := h'.freeCount.trans h.freeCount

theorem loadedBlk_frame (s : State) (b : Block) : BodyFrame s { s with blk := b } := { BodyFrame.refl s with }

theorem fdctBody_frame (s : State) : BodyFrame s (fdctBody s) := by constructor <;> simp

theorem idctBody_frame (s : State) : BodyFrame s (idctBody s) := by constructor <;> simp

theorem quantBody_frame (s : State) : BodyFrame s (quantBody s) := by constructor <;> simp

theorem dequantBody_frame (s : State) : BodyFrame s (dequantBody s) := by constructor <;> simp

theorem embedBody_frame (b : Bool) (s : State) : BodyFrame s (embedBody b s) := by constructor <;> simp

theorem extractBody_frame (s : State) : BodyFrame s (extractBody s) := by constructor <;> simp [extractBody]

theorem tileStoreBody_frame (idx : Nat) (s : State) : BodyFrame s (tileStoreBody idx s) := by constructor <;> simp

theorem encodeBlock_frame (b : Bool) (i : Nat) (s : State) : BodyFrame s (encodeBlock b i s) := by
  constructor <;> simp [encodeBlock]

theorem receiveBit_frame (b : Bool) (s : State) : BodyFrame s (receiveBit b s) := by
  rcases receiveBit_cases b s with ⟨-, h⟩ | ⟨-, h⟩ <;> rw [h] <;> constructor <;> rfl

theorem execTileLoad_commandStep {idx : Nat} {s t : State} (h : execTileLoad idx s = .next t) : CommandStep s t := by
  rcases execTileLoad_cases h with ⟨-, rfl⟩ | ⟨-, -, rfl⟩
  · exact (BodyFrame.refl s).completed _
  · exact (loadedBlk_frame s _).completed _

theorem execTileStore_commandStep {idx : Nat} {s t : State} (h : execTileStore idx s = .next t) : CommandStep s t := by
  rcases execTileStore_cases h with ⟨-, rfl⟩ | ⟨-, rfl⟩
  · exact (BodyFrame.refl s).completed _
  · exact (tileStoreBody_frame idx s).completed _

theorem execEncode_commandStep {s t : State} (h : execEncode s = .next t) : CommandStep s t := by
  rcases execEncode_cases h with ⟨-, -, rfl⟩ | ⟨-, -, rfl⟩ | ⟨-, byte, -, -, rfl⟩
  · exact (BodyFrame.refl s).completed _
  · refine BodyFrame.startLoop ?_ _
    exact { BodyFrame.refl s with }
  · exact ((loadedBlk_frame s _).trans (encodeBlock_frame ..)).advance

theorem execDecode_commandStep {s t : State} (h : execDecode s = .next t) : CommandStep s t := by
  rcases execDecode_cases h with ⟨-, -, rfl⟩ | ⟨-, -, rfl⟩ | ⟨-, -, rfl⟩
  · exact (BodyFrame.refl s).completed _
  · refine BodyFrame.startLoop ?_ _
    exact { BodyFrame.refl s with }
  · have hload := loadedBlk_frame s (loadedBlock s.img s.width.toNat s.i)
    exact ((hload.trans (fdctBody_frame _)).trans (quantBody_frame _)).trans (receiveBit_frame ..) |>.advance

/-- A command whose one step is a body and its completion. -/
theorem BodyFrame.commandStep_of_finish {s u t : State} (hu : BodyFrame s u)
    (h : (.next (finish u) : Host.Outcome State Fault Refusal) = .next t) : CommandStep s t := by
  cases h
  exact hu.completed .noError

/-- Every engine step of a command is a body and possibly a completion (40_command.md R94 to R96). -/
theorem exec_commandStep {i : Instr} {s t : State} (h : exec i s = .next t) : CommandStep s t := by
  cases i with
  | nop => exact (BodyFrame.refl s).commandStep_of_finish h
  | encode => exact execEncode_commandStep h
  | decode => exact execDecode_commandStep h
  | fdct => exact (fdctBody_frame s).commandStep_of_finish h
  | idct => exact (idctBody_frame s).commandStep_of_finish h
  | quant => exact (quantBody_frame s).commandStep_of_finish h
  | dequant => exact (dequantBody_frame s).commandStep_of_finish h
  | embed b => exact (embedBody_frame b s).commandStep_of_finish h
  | extract => exact (extractBody_frame s).commandStep_of_finish h
  | tileLoad idx => exact execTileLoad_commandStep h
  | tileStore idx => exact execTileStore_commandStep h

/-- The same of the engine's turn, which may also wait or end an illegal word. -/
theorem engineStep_commandStep {s t : State} (h : engineStep s = .next t) : CommandStep s t := by
  unfold engineStep at h
  split at h
  · split at h
    · cases h
      exact (BodyFrame.refl s).completed .illegalCommand
    · exact exec_commandStep h
  · cases h
    exact (BodyFrame.refl s).running

/-! ### The parameters (00_scope.md R9 to R11) -/

theorem CommandStep.params_eq {s t : State} (h : CommandStep s t) : t.params = s.params := by
  obtain ⟨u, hu, rfl | ⟨e, rfl⟩⟩ := h
  · exact hu.params
  · exact hu.params

theorem hostStep_params {s t : State} (h : hostStep s = .next t) : t.params = s.params := by
  unfold hostStep at h
  split at h
  · cases h; rfl
  · exact (hostAccess_params h :)
  · exact (hostAccess_params h :)
  · split at h
    · exact (hostAccess_params h :)
    · cases h

theorem assertReset_params (s : State) : (assertReset s).params = s.params := rfl

theorem takeTurn_params {turn : Turn} {s t : State} (h : takeTurn turn s = .next t) : t.params = s.params := by
  cases turn with
  | engine =>
    simp only [takeTurn] at h
    split at h
    · exact (engineStep_commandStep h).params_eq
    · cases h; rfl
  | host =>
    simp only [takeTurn] at h
    split at h
    · exact hostStep_params h
    · cases h; rfl
  | resetLow => cases h; exact assertReset_params s
  | resetHigh => cases h; rfl

theorem step_params {s t : State} (h : step s = .next t) : t.params = s.params := by
  unfold step interleave at h
  split at h
  · exact takeTurn_params h
  · exact (takeTurn_params h :)

/-! ### The event bits and the interrupt line (10_state.md R35 to R37) -/

theorem Events.getLsbD_word (e : Events) (b : Nat) :
    e.word.getLsbD b = (b == 0 && e.done || b == 1 && e.warn || b == 2 && e.erri) := by
  change BitVec.getLsbD (w := 29 + 1 + 1 + 1)
    (0#29 ++ BitVec.ofBool e.erri ++ BitVec.ofBool e.warn ++ BitVec.ofBool e.done) b = _
  rw [BitVec.getLsbD_append, BitVec.getLsbD_append, BitVec.getLsbD_append]
  rcases b with _ | _ | _ | b <;> simp

theorem Events.word_ofWord (v : Word) : (Events.ofWord v).word = v &&& 0x7#32 := by
  refine BitVec.eq_of_getLsbD_eq fun b hb => ?_
  have h7 : (0x7#32).getLsbD b = decide (b < 3) := by
    rw [BitVec.getLsbD_ofNat, show 7 = 2 ^ 3 - 1 from rfl, Nat.testBit_two_pow_sub_one]
    simp [hb]
  rw [Events.getLsbD_word, BitVec.getLsbD_and, h7]
  rcases b with _ | _ | _ | b <;> simp [Events.ofWord]

/-- A completion only adds pending events, so it cannot lower the line. -/
theorem irq_complete {s : State} (e : ErrorCode) (h : s.irq = true) : (complete e s).irq = true := by
  simp only [State.irq, Bool.or_eq_true, Bool.and_eq_true, complete_intStatus, complete_intEnable] at h ⊢
  tauto

theorem irq_congr {s t : State} (hs : t.intStatus = s.intStatus) (he : t.intEnable = s.intEnable) : t.irq = s.irq := by
  simp only [State.irq, hs, he]

theorem CommandStep.irq_mono {s t : State} (h : CommandStep s t) (hs : s.irq = true) : t.irq = true := by
  obtain ⟨u, hu, ht⟩ := h
  have hirq : u.irq = true := (irq_congr hu.intStatus hu.intEnable).trans hs
  rcases ht with rfl | ⟨e, rfl⟩
  · exact hirq
  · exact irq_complete e hirq

theorem irq_eq_word_bits (s : State) : s.irq =
    ((csrRead .intStatus s).getLsbD 0 && (csrRead .intEnable s).getLsbD 0 ||
     (csrRead .intStatus s).getLsbD 1 && (csrRead .intEnable s).getLsbD 1 ||
     (csrRead .intStatus s).getLsbD 2 && (csrRead .intEnable s).getLsbD 2) := by
  simp only [csrRead, Events.getLsbD_word]
  simp [State.irq]

/-- A host write that addresses neither INT_STATUS nor INT_ENABLE leaves the line. -/
theorem busWrite_irq {x : Transaction} {s : State} (hs : regionOf s.params x.addr.toNat ≠ .csr .intStatus)
    (he : regionOf s.params x.addr.toNat ≠ .csr .intEnable) : (busWrite x s).1.irq = s.irq := by
  rcases busWrite_cases x s with ⟨c, hc, hb⟩ | ⟨_, _, _, _, _, hb⟩ <;> rw [hb]
  · have hcs : c ≠ .intStatus := fun h => hs (h ▸ hc)
    have hce : c ≠ .intEnable := fun h => he (h ▸ hc)
    exact irq_congr (csrWrite_intStatus hcs _ _) (csrWrite_intEnable hce _ _)
  · rfl

theorem hostAccess_irq {x : Transaction} {s t : State} (h : hostAccess x s = .next t)
    (hx : x.write = true → regionOf s.params x.addr.toNat ≠ .csr .intStatus ∧
      regionOf s.params x.addr.toNat ≠ .csr .intEnable) : t.irq = s.irq := by
  rcases hostAccess_cases h with ⟨hw, rfl⟩ | ⟨-, r, d, rfl⟩
  · exact busWrite_irq (hx hw).1 (hx hw).2
  · rfl

/-! ### The statements -/

/-- Settles O17: an engine step is a command body, which leaves the event bits, and possibly a completion, which only adds
events; a host access reaches the event bits through their two registers alone. -/
theorem interruptLineIsLevelSensitive : Obligations.InterruptLineIsLevelSensitive := by
  refine ⟨irq_eq_word_bits, fun i s t h => (exec_commandStep h).irq_mono, fun s t h => (engineStep_commandStep h).irq_mono,
    fun s t x => hostAccess_irq, fun s => ⟨?_, ?_⟩, rfl, fun s => rfl⟩
  · exact ⟨_, write32_csr (c := .intStatus) rfl, by simp [State.irq, Events.clear]⟩
  · exact ⟨_, write32_csr (c := .intEnable) rfl, by simp [State.irq, Events.ofWord]⟩

/-- CAPACITY is at most what the largest 16-bit geometry gives. -/
theorem capacity_le (s : State) : s.capacity ≤ 201277443 := by
  have hh : s.height.toNat / 8 ≤ 8191 := by omega
  have hw : s.width.toNat / 8 ≤ 8191 := by omega
  have := Nat.mul_le_mul hh hw
  unfold State.capacity
  omega

/-- Settles O18: the register reads `State.capacity`, which is below 2^32. -/
theorem capacityIsComputedFromTheGeometry : Obligations.CapacityIsComputedFromTheGeometry := by
  refine ⟨fun s => ⟨_, read32_csr .capacity s, ?_⟩, fun s v => write32_csr (c := .capacity) rfl, rfl⟩
  have hle := capacity_le s
  have hd : (csrRead .capacity s).toNat = s.capacity := by
    simp only [csrRead, BitVec.toNat_ofNat]
    omega
  exact ⟨hd, hd ▸ hle⟩

/-- Settles O20: a read of each register, a refused write of each, and the frame of a step and of a reset for the
parameters. -/
theorem readOnlyRegistersRefuseWrites : Obligations.ReadOnlyRegistersRefuseWrites := by
  refine ⟨fun s => ⟨read32_csr .id s, read32_csr .cmd s, read32_csr .progress s, read32_csr .imgSize s,
      read32_csr .msgSize s, fun k => ⟨_, read32_qtab k s, ?_, ?_⟩⟩,
    fun s v => ⟨?_, fun k => write32_qtab k v s⟩, fun s hvalid => ?_, fun s t => step_params, assertReset_params⟩
  · rw [← BitVec.setWidth_eq_extractLsb' (by decide), BitVec.setWidth_setWidth_of_le _ (by decide), BitVec.setWidth_eq]
  · ext b hb; simp
  · simp only [List.forall_mem_cons]
    exact ⟨write32_csr (c := .id) rfl, write32_csr (c := .progress) rfl, write32_csr (c := .imgSize) rfl,
      write32_csr (c := .msgSize) rfl, fun off h => nomatch h⟩
  · obtain ⟨⟨-, -, himg⟩, ⟨-, hmsg, -⟩, -⟩ := hvalid
    simp only [csrRead, BitVec.toNat_ofNat]
    omega

/-- Settles O14: `Status.clear` keeps every field but SAT and OVR. -/
theorem statusWriteClearsSatAndOvr : Obligations.StatusWriteClearsSatAndOvr :=
  fun _ _ => write32_csr (c := .status) rfl

/-- Settles O16: the write stores the three bits of `Events.ofWord`, and `Events.word` reads them back. -/
theorem intEnableKeepsItsThreeBits : Obligations.IntEnableKeepsItsThreeBits := by
  refine ⟨fun s v => ⟨_, write32_csr (c := .intEnable) rfl, rfl, rfl, ?_⟩, rfl⟩
  rw [← Events.word_ofWord]
  exact read32_csr .intEnable _

/-- Settles O19: each of the five registers is an operand register, written through `whileIdle`. -/
theorem operandRegistersAreWritableWhileIdle : Obligations.OperandRegistersAreWritableWhileIdle := by
  refine ⟨fun s v hidle => ?_, fun s v hbusy => ?_, fun s => ?_, fun s => ?_, rfl, rfl, rfl, rfl, rfl⟩
  · have performed := whileIdle_of_idle hidle
    exact ⟨write32_csr (c := .width) (performed _), write32_csr (c := .height) (performed _),
      write32_csr (c := .encLen) (performed _), write32_csr (c := .decBits) (performed _),
      write32_csr (c := .clampCnt) (performed _)⟩
  · have refused := whileIdle_of_busy hbusy
    simp only [List.forall_mem_cons]
    exact ⟨write32_csr (c := .width) (refused _), write32_csr (c := .height) (refused _),
      write32_csr (c := .encLen) (refused _), write32_csr (c := .decBits) (refused _),
      write32_csr (c := .clampCnt) (refused _), fun off h => nomatch h⟩
  · have zeroExtended (g : BitVec 16) : (g.setWidth 32).toNat = g.toNat := BitVec.toNat_setWidth_of_le (by decide)
    exact ⟨zeroExtended s.width, zeroExtended s.height, rfl, rfl⟩
  · exact ⟨read32_csr .width s, read32_csr .height s, read32_csr .encLen s, read32_csr .decBits s,
      read32_csr .clampCnt s⟩

end Sys2Proof.Machine
end

section
/-! The command word (30_encoding.md): which words are illegal, which command every other word encodes, and the statements
about the opcode map and about illegal words. -/

namespace Sys2Proof

/-! ### Illegal words (30_encoding.md R88) -/

/-- The four conditions that make a word illegal, on its value (30_encoding.md R88). -/
abbrev IllegalWord (w : Word) : Prop :=
  11 ≤ w.toNat % 16 ∨ w.toNat / 32 % 8 ≠ 0 ∨ (w.toNat / 16 % 2 = 1 ∧ w.toNat % 16 ≠ 7) ∨
    (w.toNat / 256 ≠ 0 ∧ w.toNat % 16 ≠ 9 ∧ w.toNat % 16 ≠ 10)

theorem decode_eq_error_iff (w : Word) : (∃ e, decode w = .error e) ↔ IllegalWord w := by
  have hop (k : BitVec 4) : opField w = k ↔ w.toNat % 16 = k.toNat := by rw [← BitVec.toNat_inj, opField_toNat]
  have hrsv : rsvField w = 0 ↔ w.toNat / 32 % 8 = 0 := by rw [← BitVec.toNat_inj, rsvField_toNat]; rfl
  have hidx : idxField w = 0 ↔ w.toNat / 256 = 0 := by rw [← BitVec.toNat_inj, idxField_toNat]; rfl
  simp only [decode, bField_eq, opField_toNat, ne_eq, hop, hrsv, hidx, decide_eq_true_eq, BitVec.toNat_ofNat]
  split
  next h => exact iff_of_true ⟨_, rfl⟩ (.inr (.inl h))
  split
  next h => exact iff_of_true ⟨_, rfl⟩ (.inr (.inr (.inl h)))
  split
  next h => exact iff_of_true ⟨_, rfl⟩ (.inr (.inr (.inr h)))
  split
  case h_12 => exact iff_of_true ⟨_, rfl⟩ (.inl (by simp only [imp_false] at *; omega))
  all_goals exact iff_of_false (fun ⟨_, h⟩ => nomatch h) (by omega)

/-! ### The command that a legal word encodes (30_encoding.md R86, R90) -/

theorem decode_encode {i : Instr} (h : i.wf = true) : decode (encode i) = .ok i := by
  cases i with
  | nop => exact Laws.RoundTrip.nop h
  | encode => exact Laws.RoundTrip.encode h
  | decode => exact Laws.RoundTrip.decode h
  | fdct => exact Laws.RoundTrip.fdct h
  | idct => exact Laws.RoundTrip.idct h
  | quant => exact Laws.RoundTrip.quant h
  | dequant => exact Laws.RoundTrip.dequant h
  | embed b => exact Laws.RoundTrip.embed b h
  | extract => exact Laws.RoundTrip.extract h
  | tileLoad idx => exact Laws.RoundTrip.tileLoad idx h
  | tileStore idx => exact Laws.RoundTrip.tileStore idx h

/-- A word whose low byte is `op` alone is the word of that `op` with the bits above as its IDX. -/
theorem tileWord_of_lowByte {w : Word} {op : Nat} (hop : op < 16) (h : w.toNat % 256 = op) :
    decide (w.toNat / 256 < 2 ^ 24) = true ∧ (BitVec.ofNat 32 (w.toNat / 256) <<< 8) ||| BitVec.ofNat 32 op = w := by
  have hidx : w.toNat / 256 < 2 ^ 24 := by omega
  refine ⟨decide_eq_true hidx, BitVec.eq_of_toNat_eq ?_⟩
  rw [tileWord_toNat hidx hop]
  omega

theorem tileLoad_of_lowByte {w : Word} (h : w.toNat % 256 = 9) :
    (Instr.tileLoad (w.toNat / 256)).wf = true ∧ encode (.tileLoad (w.toNat / 256)) = w :=
  tileWord_of_lowByte (op := 9) (by decide) h

theorem tileStore_of_lowByte {w : Word} (h : w.toNat % 256 = 10) :
    (Instr.tileStore (w.toNat / 256)).wf = true ∧ encode (.tileStore (w.toNat / 256)) = w :=
  tileWord_of_lowByte (op := 10) (by decide) h

/-- Every legal word is the word of a well-formed command: its OP names the command, its B and IDX are the operands. -/
theorem exists_encode_of_legal {w : Word} (h : ¬IllegalWord w) : ∃ i : Instr, i.wf = true ∧ encode i = w := by
  have plain (i : Instr) (hwf : i.wf = true) (hi : (encode i).toNat = w.toNat) :
      ∃ i : Instr, i.wf = true ∧ encode i = w := ⟨i, hwf, BitVec.eq_of_toNat_eq hi⟩
  have hop : w.toNat % 16 < 11 := by omega
  interval_cases hw : w.toNat % 16
  · exact plain .nop rfl (show 0 = _ by omega)
  · exact plain .encode rfl (show 1 = _ by omega)
  · exact plain .decode rfl (show 2 = _ by omega)
  · exact plain .fdct rfl (show 3 = _ by omega)
  · exact plain .idct rfl (show 4 = _ by omega)
  · exact plain .quant rfl (show 5 = _ by omega)
  · exact plain .dequant rfl (show 6 = _ by omega)
  · rcases Nat.mod_two_eq_zero_or_one (w.toNat / 16) with hb | hb
    · exact plain (.embed false) rfl (show 7 = _ by omega)
    · exact plain (.embed true) rfl (show 23 = _ by omega)
  · exact plain .extract rfl (show 8 = _ by omega)
  · exact ⟨_, tileLoad_of_lowByte (by omega)⟩
  · exact ⟨_, tileStore_of_lowByte (by omega)⟩

theorem decode_eq_ok_iff {w : Word} {i : Instr} : decode w = .ok i ↔ i.wf = true ∧ encode i = w := by
  refine ⟨fun h => ?_, fun ⟨hwf, hw⟩ => hw ▸ decode_encode hwf⟩
  have hlegal : ¬IllegalWord w := fun hill => by
    obtain ⟨e, he⟩ := (decode_eq_error_iff w).2 hill
    cases h.symm.trans he
  obtain ⟨j, hwf, rfl⟩ := exists_encode_of_legal hlegal
  cases h.symm.trans (decode_encode hwf)
  exact ⟨hwf, rfl⟩

/-! ### The opcode map (30_encoding.md R87) -/

/-- A row whose mask is full selects its pattern alone. -/
theorem OpcodeRow.selects_fullMask (name : String) (p w : Word) :
    (OpcodeRow.mk name p 0xFFFFFFFF#32).selects w = true ↔ p = w := by
  have hmask : w &&& 0xFFFFFFFF#32 = w := BitVec.and_allOnes
  rw [OpcodeRow.selects, hmask, beq_iff_eq, eq_comm]

/-- A row that masks out IDX compares the low byte alone. -/
theorem OpcodeRow.selects_lowByteMask (name : String) (p w : Word) :
    (OpcodeRow.mk name p 0x000000FF#32).selects w = true ↔ w.toNat % 256 = p.toNat := by
  rw [OpcodeRow.selects, beq_iff_eq, ← BitVec.toNat_inj, BitVec.toNat_and]
  exact Eq.congr_left (Nat.and_two_pow_sub_one_eq_mod w.toNat 8)

/-- The mask of the EMBED row leaves out bit 4 alone, which is the operand B. -/
theorem encode_embed_of_selects {w : Word} (h : (OpcodeRow.mk "EMBED" 0x00000007#32 0xFFFFFFEF#32).selects w = true) :
    encode (.embed (bField w)) = w := by
  have hsel : w &&& 0xFFFFFFEF#32 = 0x00000007#32 := eq_of_beq h
  have hb : w &&& 0x10#32 = if bField w then 0x10#32 else 0#32 := BitVec.and_twoPow w 4
  calc encode (.embed (bField w))
      = 0x00000007#32 ||| (if bField w then 0x10#32 else 0#32) := by cases bField w <;> rfl
    _ = (w &&& 0xFFFFFFEF#32) ||| (w &&& 0x10#32) := by rw [hsel, hb]
    _ = w &&& 0xFFFFFFFF#32 := (BitVec.and_or_distrib_left ..).symm
    _ = w := BitVec.and_allOnes

/-- A row selects only words of its own command. -/
theorem encode_of_selects (w : Word) : ∀ r ∈ opcodeMap, r.selects w = true →
    ∃ i : Instr, (i.wf = true ∧ encode i = w) ∧ r.mnemonic = i.mnemonic := by
  simp only [opcodeMap, List.forall_mem_cons, OpcodeRow.selects_fullMask, OpcodeRow.selects_lowByteMask]
  exact ⟨fun h => ⟨.nop, ⟨rfl, h⟩, rfl⟩, fun h => ⟨.encode, ⟨rfl, h⟩, rfl⟩, fun h => ⟨.decode, ⟨rfl, h⟩, rfl⟩,
    fun h => ⟨.fdct, ⟨rfl, h⟩, rfl⟩, fun h => ⟨.idct, ⟨rfl, h⟩, rfl⟩, fun h => ⟨.quant, ⟨rfl, h⟩, rfl⟩,
    fun h => ⟨.dequant, ⟨rfl, h⟩, rfl⟩, fun h => ⟨.embed _, ⟨rfl, encode_embed_of_selects h⟩, rfl⟩,
    fun h => ⟨.extract, ⟨rfl, h⟩, rfl⟩, fun h => ⟨.tileLoad _, tileLoad_of_lowByte h, rfl⟩,
    fun h => ⟨.tileStore _, tileStore_of_lowByte h, rfl⟩, fun r h => nomatch h⟩

theorem selects_tileWord (name : String) {idx op : Nat} (hidx : decide (idx < 2 ^ 24) = true) (hop : op < 16) :
    (OpcodeRow.mk name (BitVec.ofNat 32 op) 0x000000FF#32).selects
      ((BitVec.ofNat 32 idx <<< 8) ||| BitVec.ofNat 32 op) = true := by
  rw [OpcodeRow.selects_lowByteMask, tileWord_toNat (of_decide_eq_true hidx) hop, BitVec.toNat_ofNat]
  omega

theorem exists_selects_encode {i : Instr} (h : i.wf = true) :
    ∃ r ∈ opcodeMap, r.selects (encode i) = true ∧ r.mnemonic = i.mnemonic := by
  cases i with
  | embed b => cases b <;> decide
  | tileLoad idx => exact ⟨⟨_, 0x09#32, _⟩, by decide, selects_tileWord "TILE_LOAD" (op := 9) h (by decide), rfl⟩
  | tileStore idx => exact ⟨⟨_, 0x0A#32, _⟩, by decide, selects_tileWord "TILE_STORE" (op := 10) h (by decide), rfl⟩
  | _ => decide

theorem opcodeMap_mnemonic_injective :
    ∀ r ∈ opcodeMap, ∀ r' ∈ opcodeMap, r.mnemonic = r'.mnemonic → r = r' := by decide

theorem decode_of_selects {w : Word} {r : OpcodeRow} (hr : r ∈ opcodeMap) (h : r.selects w = true) :
    ∃ i, decode w = .ok i ∧ r.mnemonic = i.mnemonic :=
  have ⟨i, hi, hname⟩ := encode_of_selects w r hr h
  ⟨i, decode_eq_ok_iff.2 hi, hname⟩

theorem exists_selects_of_decode {w : Word} {i : Instr} (h : decode w = .ok i) :
    ∃ r ∈ opcodeMap, r.selects w = true ∧ r.mnemonic = i.mnemonic := by
  obtain ⟨hwf, rfl⟩ := decode_eq_ok_iff.1 h
  exact exists_selects_encode hwf

/-- Settles O3: a row selects exactly the words that decode to its command, and a row is known by its mnemonic. -/
theorem opcodeMapSelectsOneRow : Obligations.OpcodeMapSelectsOneRow := by
  refine fun w => ⟨fun r hr r' hr' h h' => ?_, fun i => exists_selects_of_decode, fun ⟨e, he⟩ r hr => ?_, fun hnone => ?_⟩
  · obtain ⟨i, hi, hname⟩ := decode_of_selects hr h
    obtain ⟨j, hj, hname'⟩ := decode_of_selects hr' h'
    cases hi.symm.trans hj
    exact opcodeMap_mnemonic_injective r hr r' hr' (hname.trans hname'.symm)
  · refine Bool.eq_false_iff.2 fun h => ?_
    obtain ⟨i, hi, -⟩ := decode_of_selects hr h
    cases hi.symm.trans he
  · cases hw : decode w with
    | error e => exact ⟨e, rfl⟩
    | ok i =>
      obtain ⟨r, hr, h, -⟩ := exists_selects_of_decode hw
      cases h.symm.trans (hnone r hr)

namespace Machine

/-! ### The end of an illegal word (30_encoding.md R88; 40_command.md R94) -/

theorem engineStep_of_illegal {s : State} {e : Illegal} (hbusy : s.busy = true) (h : decode s.latched = .error e) :
    engineStep s = .next (s.failed .illegalCommand) := by
  simp only [engineStep, hbusy, if_true, h, raiseError_eq (e := .illegalCommand) (by decide)]

theorem csrWrite_cmd_of_idle {s : State} (h : s.busy = false) (w : Word) : csrWrite .cmd w s = (accept w s, .okay) := by
  simp [csrWrite, h]

/-- Settles O4: the four conditions are what the decoder refuses, and the engine step of a refused word raises the error. -/
theorem illegalWordsEndWithIllegalCommand : Obligations.IllegalWordsEndWithIllegalCommand :=
  ⟨decode_eq_error_iff,
    fun w _ s hill hidle => ⟨write32_csr (c := .cmd) (csrWrite_cmd_of_idle hidle w), accept_busy w s,
      engineStep_of_illegal (accept_busy w s) hill⟩,
    rfl⟩

end Machine
end Sys2Proof
end

section
/-! The command protocol (40_command.md): the write of CMD, the turns of the host and of the engine that a run of a command is
made of, and the statements about refusal, acceptance and NOP. -/

namespace Sys2Proof.Machine

/-! ### The write of CMD (40_command.md R92, R93) -/

theorem csrWrite_cmd_of_busy {s : State} (h : s.busy = true) (w : Word) : csrWrite .cmd w s = (setOvr s, .error) := by
  simp [csrWrite, h]

/-- Settles O8: CMD is written through `csrWrite`, which only sets OVR while BUSY. -/
theorem cmdWriteWhileBusyIsRefused : Obligations.CmdWriteWhileBusyIsRefused :=
  fun _ w hbusy => write32_csr (c := .cmd) (csrWrite_cmd_of_busy hbusy w)

/-- Settles O9: CMD is written through `csrWrite`, which accepts the word while idle. -/
theorem cmdWriteWhileIdleIsAccepted : Obligations.CmdWriteWhileIdleIsAccepted :=
  fun s w hidle => ⟨write32_csr (c := .cmd) (csrWrite_cmd_of_idle hidle w), accept_busy w s⟩

/-! ### A turn that is fixed in advance (20_memory.md R75) -/

theorem step_of_engineTurn {s : State} {rest : List Turn} (hrst : s.rstN = true) (hturn : s.schedule = .engine :: rest) :
    step s = engineStep { s with schedule := rest } := by
  simp [step, interleave, takeTurn, hturn, hrst]

theorem step_of_hostTurn {s : State} {rest : List Turn} (hrst : s.rstN = true) (hturn : s.schedule = .host :: rest) :
    step s = hostStep { s with schedule := rest } := by
  simp [step, interleave, takeTurn, hturn, hrst]

/-! ### The steps of `RUN NOP` at an idle engine (30_encoding.md R91; 40_command.md R93, R97) -/

theorem hostStep_cmd_of_idle {s : State} {w : Word} {more : List HostStmt} (hidle : s.busy = false)
    (hstmt : s.host = .cmd w :: more) :
    hostStep s = .next { accept w s with host := more, lastResponse := some (.write .okay) } := by
  simp only [hostStep, hstmt, HostStmt.cmd, HostStmt.w32]
  exact write32_csr (c := .cmd) (csrWrite_cmd_of_idle (s := { s with host := more }) hidle w)

theorem exec_nop (s : State) : exec .nop s = .next s.finished := congrArg Host.Outcome.next (finish_eq s)

theorem decode_nopWord : decode 0x00000000#32 = .ok .nop := decode_encode (i := .nop) rfl

theorem engineStep_of_legal {s : State} {i : Instr} (hbusy : s.busy = true) (h : decode s.latched = .ok i) :
    engineStep s = exec i s := by
  simp only [engineStep, hbusy, if_true, h]

theorem engineStep_of_nop {s : State} (hbusy : s.busy = true) (h : decode s.latched = .ok .nop) :
    engineStep s = .next s.finished :=
  (engineStep_of_legal hbusy h).trans (exec_nop s)

/-- Bit 0 of STATUS is BUSY (10_state.md R28). -/
theorem statusWord_getLsbD_zero (s : State) : (statusWord s).getLsbD 0 = s.busy := by
  rw [statusWord, BitVec.getLsbD_append]
  simp

theorem hostStep_poll_of_idle {s : State} {more : List HostStmt} (hidle : s.busy = false) (hstmt : s.host = .poll :: more) :
    hostStep s = .next { s with host := more, lastResponse := some (.read .okay (statusWord s)) } := by
  simp only [hostStep, hstmt, statusWord_getLsbD_zero, hidle]
  exact read32_csr .status { s with host := more }

theorem run_of_step {s t : State} (k : Nat) (h : step s = .next t) :
    Host.Core.run Sys2Proof.core (k + 1) s = Host.Core.run Sys2Proof.core k t := by
  simp only [Host.Core.run, Sys2Proof.core, h]

/-- `RUN NOP` at an idle engine is the CMD write, the completion and the POLL, which reads the STATUS of the completion. -/
theorem run_runNop {s : State} (hrst : s.rstN = true) (hidle : s.busy = false) (hstmts : s.host = HostStmt.run 0x00000000#32)
    (hturns : s.schedule = [.host, .engine, .host]) :
    Host.Core.run Sys2Proof.core 3 s =
      .next { (accept 0x00000000#32 s).finished with
        host := [], schedule := [], lastResponse := some (.read .okay (statusWord (accept 0x00000000#32 s).finished)) } :=
  calc Host.Core.run Sys2Proof.core 3 s
    _ = Host.Core.run Sys2Proof.core 2 { accept 0x00000000#32 s with
          host := [.poll], schedule := [.engine, .host], lastResponse := some (.write .okay) } :=
      run_of_step 2 (.trans (step_of_hostTurn hrst hturns) (hostStep_cmd_of_idle hidle hstmts))
    _ = Host.Core.run Sys2Proof.core 1 { (accept 0x00000000#32 s).finished with
          host := [.poll], schedule := [.host], lastResponse := some (.write .okay) } :=
      run_of_step 1 (.trans (step_of_engineTurn hrst rfl) (engineStep_of_nop rfl decode_nopWord))
    _ = _ := run_of_step 0 (.trans (step_of_hostTurn hrst rfl) (hostStep_poll_of_idle rfl rfl))

/-- Settles O10: NOP's step is a completion without error, 0x10 has B = 1 outside EMBED, and `RUN NOP` is run from reset. -/
theorem nopOnlyCompletes : Obligations.NopOnlyCompletes := by
  refine ⟨exec_nop, decode_nopWord, fun s hword hcheck => ?_, _, run_runNop rfl rfl rfl rfl, rfl, rfl, rfl, rfl⟩
  have hbusy : s.busy = true := (busy_iff s).2 (by simp [hcheck])
  have hill : decode s.latched = .error .bitOutsideEmbed := by rw [hword]; rfl
  exact engineStep_of_illegal hbusy hill

end Sys2Proof.Machine
end

section
/-! The Transform (41_transform.md): the values of FDCT and IDCT before saturation, their DC path, and the statement about it. -/

namespace Sys2Proof.Machine

/-! ### Rounding (00_scope.md R15) -/

theorem rnd_two_pow_mul_add (z : Int) (m : Nat) {n : Nat} (hn : 1 ≤ n) : rnd (2 ^ m * z) (m + n) = rnd z n := by
  obtain ⟨n, rfl⟩ := Nat.exists_eq_add_of_le' hn
  have hfactor : (2 ^ m * z + 2 ^ (m + n) : Int) = 2 ^ m * (z + 2 ^ n) := by rw [pow_add, mul_add]
  simp only [rnd, ← Nat.add_assoc, Nat.add_sub_cancel, Nat.cast_pow, Nat.cast_ofNat, hfactor]
  rw [Nat.add_assoc, pow_add, Int.mul_ediv_mul_of_pos _ _ (by positivity)]

theorem rnd_two_pow_mul (z : Int) {n : Nat} (hn : 1 ≤ n) : rnd (2 ^ n * z) n = z := by
  have hlt : (2 ^ (n - 1) : Int) < 2 ^ n := pow_lt_pow_right₀ (by decide) (by omega)
  rw [rnd, Nat.cast_pow, Nat.cast_pow, Nat.cast_ofNat, Int.add_comm,
    Int.add_mul_ediv_left _ _ (by positivity), Int.ediv_eq_zero_of_lt (by positivity) hlt, Int.zero_add]

theorem rnd_zero {n : Nat} (hn : 1 ≤ n) : rnd 0 n = 0 := by simpa using rnd_two_pow_mul 0 hn

/-! ### Sums over a block (00_scope.md R17) -/

theorem sum8_eq_sum (f : Fin 8 → Int) : sum8 f = ∑ i, f i := (Fin.sum_univ_eight f).symm

/-- A block is the union of its columns. -/
theorem sum_block (f : Fin 64 → Int) : ∑ k, f k = ∑ y, ∑ x, f (blockIndex x y) := by
  rw [← Fintype.sum_prod_type_right']
  refine (Finset.sum_nbij' (fun i => blockIndex i.1 i.2) (fun k => (rowOf k, colOf k)) ?_ ?_ ?_ ?_ ?_).symm <;> simp

theorem blockIndex_ne_zero {u v : Fin 8} (h : u ≠ 0 ∨ v ≠ 0) : blockIndex u v ≠ 0 := fun h0 => by
  have hu : u = rowOf 0 := h0 ▸ (rowOf_blockIndex u v).symm
  have hv : v = colOf 0 := h0 ▸ (colOf_blockIndex u v).symm
  exact h.elim (· hu) (· hv)

/-! ### The two passes written out (41_transform.md R113, R114) -/

theorem fdctExact_getElem (blk : Block) (u v : Fin 8) : (fdctExact blk)[blockIndex u v] =
    rnd (Sc u v * ∑ y, Kc v y * rnd (∑ x, Kc u x * sext32 blk[blockIndex x y]) 30) 60 := by
  simp [fdctExact, fdctPass1, sum8_eq_sum]

theorem idctExact_getElem (coef : Block) (x y : Fin 8) : (idctExact coef)[blockIndex x y] =
    rnd (∑ v, Kc v y * rnd (∑ u, Kc u x * Sc u v * sext32 coef[blockIndex u v]) 60) 30 := by
  simp [idctExact, idctPass1, sum8_eq_sum]

/-! ### The DC path (41_transform.md R118) -/

theorem Kc_zero (x : Fin 8) : Kc 0 x = 2 ^ 30 := by revert x; decide

theorem Sc_zero_zero : Sc 0 0 = 2 ^ 27 := rfl

/-- Row 0 of `Kc` is a power of two, so the first pass of FDCT adds up each column without rounding. -/
theorem fdctExact_zero (blk : Block) : (fdctExact blk)[(0 : Fin 64)] = rnd (∑ k : Fin 64, sext32 blk[k]) 3 := by
  have hcol (y : Fin 8) : rnd (∑ x, 2 ^ 30 * sext32 blk[blockIndex x y]) 30 = ∑ x, sext32 blk[blockIndex x y] := by
    rw [← Finset.mul_sum]
    exact rnd_two_pow_mul _ (by decide)
  calc (fdctExact blk)[(0 : Fin 64)]
    _ = rnd (2 ^ 27 * ∑ y, 2 ^ 30 * ∑ x, sext32 blk[blockIndex x y]) 60 :=
      (fdctExact_getElem blk 0 0).trans (by simp only [Kc_zero, Sc_zero_zero, hcol])
    _ = rnd (2 ^ 57 * ∑ k : Fin 64, sext32 blk[k]) (57 + 3) := by
      rw [← Finset.mul_sum, ← mul_assoc, ← pow_add, sum_block fun k => sext32 blk[k]]
    _ = rnd (∑ k : Fin 64, sext32 blk[k]) 3 := rnd_two_pow_mul_add _ 57 (by decide)

/-- The only word of a DC-only block that a sum over `u` and `v` meets has the weight `2^30 * 2^27`. -/
theorem idctExact_of_dcOnly {dc : Block} (h : ∀ k : Fin 64, k ≠ 0 → dc[k] = 0#32) (k : Fin 64) :
    (idctExact dc)[k] = rnd (sext32 dc[(0 : Fin 64)]) 3 := by
  have hzero {u v : Fin 8} (huv : u ≠ 0 ∨ v ≠ 0) : sext32 dc[blockIndex u v] = 0 := by
    rw [h _ (blockIndex_ne_zero huv)]; rfl
  have hother (x v : Fin 8) (hv : v ≠ 0) : rnd (∑ u, Kc u x * Sc u v * sext32 dc[blockIndex u v]) 60 = 0 := by
    rw [Fintype.sum_eq_zero _ fun u => by rw [hzero (.inr hv), mul_zero], rnd_zero (by decide)]
  have hdc (x : Fin 8) : rnd (∑ u, Kc u x * Sc u 0 * sext32 dc[blockIndex u 0]) 60 = rnd (sext32 dc[(0 : Fin 64)]) 3 := by
    rw [Fintype.sum_eq_single 0 fun u hu => by rw [hzero (.inl hu), mul_zero], Kc_zero, Sc_zero_zero, ← pow_add]
    exact rnd_two_pow_mul_add (n := 3) _ 57 (by decide)
  rw [← blockIndex_rowOf_colOf k, idctExact_getElem,
    Fintype.sum_eq_single 0 fun v hv => by rw [hother _ v hv, mul_zero], hdc, Kc_zero]
  exact rnd_two_pow_mul _ (by decide)

theorem saturateBlock_idctExact_of_dcOnly {dc : Block} (h : ∀ k : Fin 64, k ≠ 0 → dc[k] = 0#32) (k : Fin 64) :
    sext32 (saturateBlock (idctExact dc))[k] = rnd (sext32 dc[(0 : Fin 64)]) 3 := by
  have hF := sext32_bounds dc[(0 : Fin 64)]
  rw [saturateBlock_getElem, idctExact_of_dcOnly h]
  exact sat32_eq_self (by simp only [rnd]; omega) (by simp only [rnd]; omega)

theorem sext32_sampleWord (p : Byte) : sext32 (sampleWord p) = p.toNat * 2 ^ 16 := by
  rw [sext32, sampleWord, BitVec.toInt_ofNat']
  have := p.isLt
  exact Int.bmod_eq_of_le (by omega) (by omega)

theorem saturateBlock_fdctExact_samples_zero (p : Fin 64 → Byte) :
    sext32 (saturateBlock (fdctExact (Vector.ofFn fun k => sampleWord (p k))))[(0 : Fin 64)] =
      (∑ k, ((p k).toNat : Int)) * 2 ^ 13 := by
  have hsum : ∑ k : Fin 64, sext32 (Vector.ofFn fun k => sampleWord (p k))[k] = 2 ^ 3 * ((∑ k, ((p k).toNat : Int)) * 2 ^ 13) := by
    simp only [Fin.getElem_fin, Vector.getElem_ofFn, sext32_sampleWord, ← Finset.sum_mul]
    ring
  have hle : ∑ k, ((p k).toNat : Int) ≤ 64 * 255 := by
    simpa using Finset.sum_le_card_nsmul Finset.univ (fun k => ((p k).toNat : Int)) 255 fun k _ => by have := (p k).isLt; omega
  have hge : 0 ≤ ∑ k, ((p k).toNat : Int) := Finset.sum_nonneg fun _ _ => Int.natCast_nonneg _
  rw [saturateBlock_getElem, fdctExact_zero, hsum, rnd_two_pow_mul _ (by decide)]
  exact sat32_eq_self (by omega) (by omega)

/-- At `q = 2048` the word is clipped to `2^31 - 1`, one below `q * 2^20`, and rounds to the same value. -/
theorem rnd_sat32_dequantized {q : Int} (hlo : -2048 ≤ q) (hhi : q ≤ 2048) :
    rnd (sat32 (q * 16 * 2 ^ 16)) 3 = 2 * q * 2 ^ 16 := by
  simp only [rnd, sat32]; omega

/-- Settles O28: both DC weights are powers of two, so each direction of the DC path is one rounding by 8. -/
theorem theDcPathIsExact : Obligations.TheDcPathIsExact :=
  ⟨saturateBlock_fdctExact_samples_zero, fun _ => saturateBlock_idctExact_of_dcOnly,
    fun dc q hlo hhi hzero hdc k =>
      calc sext32 (saturateBlock (idctExact dc))[k]
        _ = rnd (sext32 dc[(0 : Fin 64)]) 3 := saturateBlock_idctExact_of_dcOnly hzero k
        _ = rnd (sat32 (q * 16 * 2 ^ 16)) 3 := congrArg (rnd · 3) hdc
        _ = 2 * q * 2 ^ 16 := rnd_sat32_dequantized hlo hhi⟩

end Sys2Proof.Machine
end

section
/-! The Tiler (43_tiler.md R126 to R128): the samples of the BlockQueue entries as bytes of the image, and the statement about
their addresses. The byte of sample `k` of entry `i` is the channel `i % 3` of one pixel. Two facts carry the statement: the
row, the column and the channel are read back from a byte (`pixelByte_inj`), and the entry and the place in the block are the
inverse of the row, the column and the channel (`entryAt_sample`, `sampleAt_sample`; `sampleRow_at`, `sampleCol_at`). -/

namespace Sys2Proof.Machine

/-! ### The bytes of a pixel (20_memory.md R64) -/

/-- The IMG byte of channel `c` of the pixel at row `y` and column `x` (20_memory.md R64). -/
def pixelByte (W y x c : Nat) : Nat := (y * W + x) * 3 + c

theorem mul_add_div_of_lt {n r : Nat} (hr : r < n) (q : Nat) : (q * n + r) / n = q :=
  Nat.div_eq_of_lt_le (by omega) (by rw [Nat.succ_mul]; omega)

theorem pixelByte_lt {W R y x c : Nat} (hy : y < R) (hx : x < W) (hc : c < 3) : pixelByte W y x c < R * W * 3 := by
  have hpixel : W * y + x < R * W := Nat.mul_add_lt_mul_of_lt_of_lt hy hx
  rw [pixelByte, Nat.mul_comm y]; omega

theorem pixelByte_inj {W y x c y' x' c' : Nat} (hx : x < W) (hx' : x' < W) (hc : c < 3) (hc' : c' < 3)
    (h : pixelByte W y x c = pixelByte W y' x' c') : y = y' ∧ x = x' ∧ c = c' := by
  have hpixel : y * W + x = y' * W + x' := by simp only [pixelByte] at h; omega
  have hrow : y = y' := by rw [← mul_add_div_of_lt hx y, hpixel, mul_add_div_of_lt hx']
  subst hrow
  exact ⟨rfl, Nat.add_left_cancel hpixel, by rw [pixelByte, pixelByte, hpixel] at h; omega⟩

/-! ### Entries and samples as pixels (43_tiler.md R126) -/

/-- The image row of sample `k` of entry `i`. -/
def sampleRow (W i k : Nat) : Nat := 8 * (i / (3 * (W / 8))) + k / 8

/-- The image column of sample `k` of entry `i`. -/
def sampleCol (W i k : Nat) : Nat := 8 * (i / 3 % (W / 8)) + k % 8

/-- The entry that holds channel `c` of the pixel at row `y` and column `x`. -/
def entryAt (W y x c : Nat) : Nat := (y / 8 * (W / 8) + x / 8) * 3 + c

/-- The place of the pixel at row `y` and column `x` in its block. -/
def sampleAt (y x : Nat) : Nat := y % 8 * 8 + x % 8

theorem sampleAddr_eq_pixelByte (W i k : Nat) :
    sampleAddr W i k = pixelByte W (sampleRow W i k) (sampleCol W i k) (i % 3) := rfl

theorem sampleCol_lt {W : Nat} (hW : 8 ≤ W) (i k : Nat) : sampleCol W i k < 8 * (W / 8) := by
  have : i / 3 % (W / 8) < W / 8 := Nat.mod_lt _ (by omega)
  rw [sampleCol]; omega

theorem sampleCol_lt_width {W : Nat} (hW : 8 ≤ W) (i k : Nat) : sampleCol W i k < W :=
  Nat.lt_of_lt_of_le (sampleCol_lt hW i k) (Nat.mul_div_le W 8)

theorem sampleRow_lt {W T i k : Nat} (hi : i < T * (W / 8) * 3) (hk : k < 64) : sampleRow W i k < 8 * T := by
  have : i / (3 * (W / 8)) < T := Nat.div_lt_of_lt_mul (by linarith)
  rw [sampleRow]; omega

/-- Entries are numbered by tile as the bytes are by pixel (43_tiler.md R126). -/
theorem entryAt_lt {W T y x c : Nat} (hy : y < 8 * T) (hx : x < 8 * (W / 8)) (hc : c < 3) :
    entryAt W y x c < T * (W / 8) * 3 :=
  pixelByte_lt (by omega) (by omega) hc

theorem sampleAt_lt (y x : Nat) : sampleAt y x < 64 := by
  rw [sampleAt]; omega

theorem entryAt_sample (W i : Nat) {k : Nat} (hk : k < 64) :
    entryAt W (sampleRow W i k) (sampleCol W i k) (i % 3) = i := by
  have hrow : sampleRow W i k / 8 = i / 3 / (W / 8) := by rw [sampleRow, ← Nat.div_div_eq_div_mul]; omega
  have hcol : sampleCol W i k / 8 = i / 3 % (W / 8) := by rw [sampleCol]; omega
  rw [entryAt, hrow, hcol, Nat.div_add_mod', Nat.div_add_mod']

theorem sampleAt_sample (W i : Nat) {k : Nat} (hk : k < 64) : sampleAt (sampleRow W i k) (sampleCol W i k) = k := by
  simp only [sampleAt, sampleRow, sampleCol]; omega

theorem entryAt_div_three {c : Nat} (hc : c < 3) (W y x : Nat) : entryAt W y x c / 3 = y / 8 * (W / 8) + x / 8 := by
  rw [entryAt]; omega

theorem sampleRow_at {W x c : Nat} (hx : x < 8 * (W / 8)) (hc : c < 3) (y : Nat) :
    sampleRow W (entryAt W y x c) (sampleAt y x) = y := by
  have htile : entryAt W y x c / (3 * (W / 8)) = y / 8 := by
    rw [← Nat.div_div_eq_div_mul, entryAt_div_three hc, mul_add_div_of_lt (by omega)]
  rw [sampleRow, htile, sampleAt]; omega

theorem sampleCol_at {W x c : Nat} (hx : x < 8 * (W / 8)) (hc : c < 3) (y : Nat) :
    sampleCol W (entryAt W y x c) (sampleAt y x) = x := by
  have htile : entryAt W y x c / 3 % (W / 8) = x / 8 := by
    rw [entryAt_div_three hc, Nat.mul_add_mod_of_lt (by omega)]
  rw [sampleCol, htile, sampleAt]; omega

theorem sampleAddr_at {W x c : Nat} (hx : x < 8 * (W / 8)) (hc : c < 3) (y : Nat) :
    sampleAddr W (entryAt W y x c) (sampleAt y x) = pixelByte W y x c := by
  have hch : entryAt W y x c % 3 = c := by rw [entryAt]; omega
  rw [sampleAddr_eq_pixelByte, sampleRow_at hx hc, sampleCol_at hx hc, hch]

/-! ### The addresses (43_tiler.md R128) -/

theorem sampleAddr_lt {W T i k : Nat} (hW : 8 ≤ W) (hi : i < T * (W / 8) * 3) (hk : k < 64) :
    sampleAddr W i k < 8 * T * W * 3 := by
  rw [sampleAddr_eq_pixelByte]
  exact pixelByte_lt (sampleRow_lt hi hk) (sampleCol_lt_width hW i k) (Nat.mod_lt i three_pos)

theorem sampleAddr_inj {W i k i' k' : Nat} (hW : 8 ≤ W) (hk : k < 64) (hk' : k' < 64)
    (h : sampleAddr W i k = sampleAddr W i' k') : i = i' ∧ k = k' := by
  rw [sampleAddr_eq_pixelByte, sampleAddr_eq_pixelByte] at h
  obtain ⟨hrow, hcol, hch⟩ :=
    pixelByte_inj (sampleCol_lt_width hW i k) (sampleCol_lt_width hW i' k') (Nat.mod_lt i three_pos) (Nat.mod_lt i' three_pos) h
  constructor
  · rw [← entryAt_sample W i hk, hrow, hcol, hch, entryAt_sample W i' hk']
  · rw [← sampleAt_sample W i hk, hrow, hcol, sampleAt_sample W i' hk']

theorem exists_sampleAddr_eq_pixelByte_iff {W T y x c : Nat} (hW : 8 ≤ W) (hx : x < W) (hc : c < 3) :
    (∃ i < T * (W / 8) * 3, ∃ k < 64, sampleAddr W i k = pixelByte W y x c) ↔ y < 8 * T ∧ x < 8 * (W / 8) := by
  constructor
  · rintro ⟨i, hi, k, hk, h⟩
    rw [sampleAddr_eq_pixelByte] at h
    obtain ⟨rfl, rfl, -⟩ := pixelByte_inj (sampleCol_lt_width hW i k) hx (Nat.mod_lt i three_pos) hc h
    exact ⟨sampleRow_lt hi hk, sampleCol_lt hW i k⟩
  · rintro ⟨hy, hx⟩
    exact ⟨_, entryAt_lt hy hx hc, _, sampleAt_lt y x, sampleAddr_at hx hc y⟩

theorem tiledRows_bytes_le (W H : Nat) : 8 * (H / 8) * W * 3 ≤ W * H * 3 := by
  rw [Nat.mul_comm W H]
  exact Nat.mul_le_mul_right 3 (Nat.mul_le_mul_right W (Nat.mul_div_le H 8))

/-- Settles O34: an address is a channel of a pixel, and a pixel's channel lies in one entry, at one place, when it is tiled. -/
theorem sampleAddressesTileTheImage : Obligations.SampleAddressesTileTheImage := by
  intro W H hW _
  refine ⟨fun i hi k hk => ⟨rfl, sampleAddr_lt hW hi hk, tiledRows_bytes_le W H⟩,
    fun i _ k hk i' _ k' hk' => sampleAddr_inj hW hk hk', fun y _ x hx c hc => ?_⟩
  rw [Nat.mul_comm 3]
  exact exists_sampleAddr_eq_pixelByte_iff hW hx hc

end Sys2Proof.Machine
end

section
/-! The embedding rule (44_bitstream.md sections 2 and 4): the bit that a word holds, the two properties of embedding that
everything else follows from, the rule as a mask of the word, and the two commands. The bit embedded is the bit extracted
(`extractBit_embedBit`), and embedding the bit that a word already holds changes nothing (`embedBit_extractBit`). -/

namespace Sys2Proof.Machine

/-! ### The bit of a word (44_bitstream.md R140) -/

theorem extractBit_iff (q : Word) : extractBit q = true ↔ mod2 (sext32 q) = 1 := beq_iff_eq

theorem bitInt_extractBit (q : Word) : bitInt (extractBit q) = mod2 (sext32 q) := by
  rcases Int.emod_two_eq (sext32 q) with h | h <;> simp [extractBit, bitInt, mod2_eq_emod, h]

theorem bitInt_injective : Function.Injective bitInt := by decide

/-- A word and its signed reading differ by a multiple of 2^32, so they have the same parity. -/
theorem sext32_emod_two (q : Word) : sext32 q % 2 = (q.toNat % 2 : Nat) := by
  rw [sext32, BitVec.toInt_eq_toNat_cond]; split <;> omega

theorem extractBit_eq_getLsbD (q : Word) : extractBit q = q.getLsbD 0 := by
  rw [Bool.eq_iff_iff, extractBit_iff, mod2_eq_emod, sext32_emod_two, BitVec.getLsbD, Nat.testBit_zero, decide_eq_true_iff]
  omega

theorem wordOfInt_bitInt (b : Bool) : wordOfInt (bitInt b) = (BitVec.ofBool b).setWidth 32 := by
  cases b <;> rfl

/-! ### The value of the embedding (44_bitstream.md R139, R143) -/

theorem bitInt_bounds (b : Bool) : 0 ≤ bitInt b ∧ bitInt b ≤ 1 := by cases b <;> decide

/-- The embedding never overflows: `sext32 q - mod2 (sext32 q)` is even, so it is below the largest value (R139). -/
theorem sext32_embedBit (q : Word) (b : Bool) : sext32 (embedBit q b) = sext32 q - mod2 (sext32 q) + bitInt b := by
  have hq := sext32_bounds q
  have hb := bitInt_bounds b
  rw [embedBit, mod2_eq_emod]
  exact sext32_wordOfInt (by omega) (by omega)

@[simp] theorem extractBit_embedBit (q : Word) (b : Bool) : extractBit (embedBit q b) = b := by
  apply bitInt_injective
  have hb := bitInt_bounds b
  rw [bitInt_extractBit, sext32_embedBit, mod2_eq_emod, mod2_eq_emod]
  omega

@[simp] theorem embedBit_extractBit (q : Word) : embedBit q (extractBit q) = q := by
  rw [embedBit, bitInt_extractBit, Int.sub_add_cancel, wordOfInt_sext32]

@[simp] theorem embedBit_embedBit (q : Word) (b : Bool) : embedBit (embedBit q b) b = embedBit q b := by
  simpa using embedBit_extractBit (embedBit q b)

theorem abs_sext32_embedBit_sub_le (q : Word) (b : Bool) : |sext32 (embedBit q b) - sext32 q| ≤ 1 := by
  have hb := bitInt_bounds b
  rw [sext32_embedBit, mod2_eq_emod, abs_le]
  omega

/-! ### The embedding as a mask of the word (44_bitstream.md R139) -/

theorem wordOfInt_add (x y : Int) : wordOfInt (x + y) = wordOfInt x + wordOfInt y := BitVec.ofInt_add x y

theorem embedBit_eq_add (q : Word) (b : Bool) : embedBit q b = embedBit q false + (BitVec.ofBool b).setWidth 32 := by
  have hzero : bitInt false = 0 := rfl
  rw [embedBit, wordOfInt_add, wordOfInt_bitInt, embedBit, hzero, Int.add_zero]

theorem and_not_one_add_bit (q : Word) (b : Bool) :
    (q &&& ~~~1#32) + (BitVec.ofBool b).setWidth 32 = (q &&& ~~~1#32) ||| (BitVec.ofBool b).setWidth 32 := by
  have hdisjoint : (q &&& ~~~1#32) &&& (BitVec.ofBool b).setWidth 32 = 0#32 := by cases b <;> simp [BitVec.and_assoc]
  exact BitVec.add_eq_or_of_and_eq_zero _ _ hdisjoint

theorem and_not_one_add_and_one (q : Word) : (q &&& ~~~1#32) + (q &&& 1#32) = q := by
  have hcover : ~~~1#32 ||| 1#32 = BitVec.allOnes 32 := rfl
  calc (q &&& ~~~1#32) + (q &&& 1#32)
    _ = (q &&& ~~~1#32) ||| (q &&& 1#32) := by rw [BitVec.and_one_eq_setWidth_ofBool_getLsbD, and_not_one_add_bit]
    _ = q := by rw [← BitVec.and_or_distrib_left, hcover, BitVec.and_allOnes]

/-- Embedding 0 clears bit 0: adding the bit that the word holds gives the word back in both. -/
theorem embedBit_false (q : Word) : embedBit q false = q &&& ~~~1#32 := by
  refine (BitVec.add_left_inj (q &&& 1#32)).mp ?_
  calc embedBit q false + (q &&& 1#32)
    _ = embedBit q (extractBit q) := by
      rw [embedBit_eq_add q (extractBit q), extractBit_eq_getLsbD, BitVec.and_one_eq_setWidth_ofBool_getLsbD]
    _ = (q &&& ~~~1#32) + (q &&& 1#32) := by rw [embedBit_extractBit, and_not_one_add_and_one]

theorem embedBit_eq_or (q : Word) (b : Bool) : embedBit q b = (q &&& ~~~1#32) ||| (BitVec.ofBool b).setWidth 32 := by
  rw [embedBit_eq_add, embedBit_false, and_not_one_add_bit]

/-- Settles O42: embedding 0 clears bit 0 and the bit is added in its place; the parity of the signed value is bit 0. -/
theorem embeddingReplacesBitZero : Obligations.EmbeddingReplacesBitZero := by
  refine ⟨fun q b => ⟨embedBit_eq_or q b, sext32_embedBit q b, ?_⟩,
    fun q => ⟨extractBit_iff q, extractBit_eq_getLsbD q⟩, by decide, by decide⟩
  have hq := sext32_bounds q
  rw [sext32] at hq
  rw [mod2_eq_emod]
  omega

/-! ### The commands (44_bitstream.md R141, R142) -/

theorem exec_embed (b : Bool) (s : State) : exec (.embed b) s = .next (embedBody b s).finished :=
  congrArg Host.Outcome.next (finish_eq (embedBody b s))

theorem exec_extract (s : State) : exec .extract s = .next (extractBody s).finished :=
  congrArg Host.Outcome.next (finish_eq (extractBody s))

theorem embedBody_qblk_zero (b : Bool) (s : State) : (embedBody b s).qblk[0] = embedBit s.qblk[0] b := by simp

theorem extractBody_lastBit (s : State) : (extractBody s).status.lastBit = extractBit s.qblk[0] := rfl

/-- Settles O43: embedding the bit that a word already holds changes nothing, and both commands work on QBLK[0]. -/
theorem embeddingIsIdempotentAndRecoverable : Obligations.EmbeddingIsIdempotentAndRecoverable := by
  refine ⟨fun q b => ⟨embedBit_embedBit q b, extractBit_embedBit q b, abs_sext32_embedBit_sub_le q b⟩, fun s b => ?_⟩
  have ht : (embedBody b s).finished.qblk[0] = embedBit s.qblk[0] b := embedBody_qblk_zero b s
  refine ⟨_, _, _, exec_embed b s, exec_embed b _, ?_, exec_extract _, ?_⟩
  · calc _ = embedBit (embedBody b s).finished.qblk[0] b := embedBody_qblk_zero b _
      _ = (embedBody b s).finished.qblk[0] := by rw [ht, embedBit_embedBit]
  · calc _ = extractBit (embedBody b s).finished.qblk[0] := extractBody_lastBit _
      _ = b := by rw [ht, extractBit_embedBit]

end Sys2Proof.Machine
end

section
/-! The CHECK step of the Codec (45_codec.md R147, R148, R152, R154): which error the checks give, in their order, when they give
none, and what the step then does. -/

namespace Sys2Proof.Machine

/-! ### The checks of the geometry (60_exceptions.md R158) -/

theorem tooLarge_iff (s : State) : s.tooLarge = true ↔ s.width.toNat * s.height.toNat * 3 > s.params.imgBytes :=
  decide_eq_true_iff

theorem tooLarge_eq_false_iff (s : State) : s.tooLarge = false ↔ s.width.toNat * s.height.toNat * 3 ≤ s.params.imgBytes := by
  rw [State.tooLarge, decide_eq_false_iff_not, Nat.not_lt]

theorem tooSmall_iff (s : State) : s.tooSmall = true ↔ s.width.toNat < 8 ∨ s.height.toNat < 8 := decide_eq_true_iff

theorem tooSmall_eq_false_iff (s : State) : s.tooSmall = false ↔ 8 ≤ s.width.toNat ∧ 8 ≤ s.height.toNat := by
  rw [State.tooSmall, decide_eq_false_iff_not, not_or, Nat.not_lt, Nat.not_lt]

theorem checks_of_geometryOk {s : State} (h : s.geometryOk) : s.tooLarge = false ∧ s.tooSmall = false := by
  obtain ⟨hsize, hdims⟩ := h
  exact ⟨(tooLarge_eq_false_iff s).mpr hsize, (tooSmall_eq_false_iff s).mpr hdims⟩

/-! ### The initialisation (45_codec.md R148, R154) -/

theorem startLoop_zero (s : State) : startLoop 0 s = { s with progress := 0#32, n := 0, i := 0 }.finished :=
  finish_eq _

theorem startLoop_of_ne_zero {n : Nat} (hn : n ≠ 0) (s : State) :
    startLoop n s = { s with progress := 0#32, n := n, i := 0, phase := .loop } := if_neg hn

/-! ### ENCODE (45_codec.md R147, R148) -/

theorem exec_encode_of_check {s : State} (h : s.phase = .check) : exec .encode s = encodeStart s := by
  simp only [exec, execEncode, h]

theorem encodeStart_of_error {s : State} {e : ErrorCode} (he : e ≠ .noError) (h : encodeCheck s = e) :
    encodeStart s = .next (s.failed e) := by
  rw [encodeStart, h, if_neg he, raiseError_eq he]

theorem encodeStart_of_noError {s : State} (h : encodeCheck s = .noError) :
    encodeStart s = .next (startLoop (8 * s.encLen.toNat) { s with clampCnt := 0#32 }) := if_pos h

theorem encodeCheck_imageTooLarge {s : State} (h : s.tooLarge = true) : encodeCheck s = .imageTooLarge := if_pos h

theorem encodeCheck_capacityExceeded {s : State} (hlarge : s.tooLarge = false) (hcap : 8 * s.encLen.toNat > s.capacity) :
    encodeCheck s = .capacityExceeded := by simp [encodeCheck, hlarge, hcap]

theorem encodeCheck_imageTooSmall {s : State} (hlarge : s.tooLarge = false) (hcap : 8 * s.encLen.toNat ≤ s.capacity)
    (hsmall : s.tooSmall = true) : encodeCheck s = .imageTooSmall := by
  simp [encodeCheck, hlarge, hcap.not_gt, hsmall]

theorem encodeCheck_noError {s : State} (hgeo : s.geometryOk) (hcap : 8 * s.encLen.toNat ≤ s.capacity) :
    encodeCheck s = .noError := by
  obtain ⟨hlarge, hsmall⟩ := checks_of_geometryOk hgeo
  simp [encodeCheck, hlarge, hcap.not_gt, hsmall]

/-- Settles O45: the clauses are the branches of `encodeCheck`, and `startLoop` with and without an entry. -/
theorem encodeChecksThenInitialises : Obligations.EncodeChecksThenInitialises := by
  intro s hphase
  rw [exec_encode_of_check hphase]
  refine ⟨fun hlarge => ?tooLarge, fun hfits hcap => ?overCapacity, fun hfits hcap hsmall => ?tooSmall,
    fun hgeo hcap hlen => ?nonempty, fun hgeo hlen => ?empty⟩
  case tooLarge =>
    exact encodeStart_of_error (by decide) (encodeCheck_imageTooLarge ((tooLarge_iff s).mpr hlarge))
  case overCapacity =>
    exact encodeStart_of_error (by decide) (encodeCheck_capacityExceeded ((tooLarge_eq_false_iff s).mpr hfits) hcap)
  case tooSmall =>
    exact encodeStart_of_error (by decide)
      (encodeCheck_imageTooSmall ((tooLarge_eq_false_iff s).mpr hfits) hcap ((tooSmall_iff s).mpr hsmall))
  case nonempty =>
    rw [encodeStart_of_noError (encodeCheck_noError hgeo hcap), startLoop_of_ne_zero (by omega)]
  case empty =>
    have hn : 8 * s.encLen.toNat = 0 := by omega
    have hcap : 8 * s.encLen.toNat ≤ s.capacity := hn ▸ Nat.zero_le _
    rw [encodeStart_of_noError (encodeCheck_noError hgeo hcap), hn, startLoop_zero]

/-! ### DECODE (45_codec.md R152, R154) -/

theorem exec_decode_of_check {s : State} (h : s.phase = .check) : exec .decode s = decodeStart s := by
  simp only [exec, execDecode, h]

theorem decodeStart_of_error {s : State} {e : ErrorCode} (he : e ≠ .noError) (h : decodeCheck s = e) :
    decodeStart s = .next (s.failed e) := by
  rw [decodeStart, h, if_neg he, raiseError_eq he]

theorem decodeStart_of_noError {s : State} (h : decodeCheck s = .noError) :
    decodeStart s = .next (startLoop s.decBits.toNat { s with acc := 0#8 }) := if_pos h

theorem decodeCheck_imageTooLarge {s : State} (h : s.tooLarge = true) : decodeCheck s = .imageTooLarge := if_pos h

theorem decodeCheck_imageTooSmall {s : State} (hlarge : s.tooLarge = false) (hsmall : s.tooSmall = true) :
    decodeCheck s = .imageTooSmall := by simp [decodeCheck, hlarge, hsmall]

theorem decodeCheck_truncatedPayload {s : State} (hgeo : s.geometryOk) (hcap : s.decBits.toNat > s.capacity) :
    decodeCheck s = .truncatedPayload := by
  obtain ⟨hlarge, hsmall⟩ := checks_of_geometryOk hgeo
  simp [decodeCheck, hlarge, hsmall, hcap]

theorem decodeCheck_noError {s : State} (hgeo : s.geometryOk) (hcap : s.decBits.toNat ≤ s.capacity) :
    decodeCheck s = .noError := by
  obtain ⟨hlarge, hsmall⟩ := checks_of_geometryOk hgeo
  simp [decodeCheck, hlarge, hsmall, hcap.not_gt]

/-- Settles O47: the clauses are the branches of `decodeCheck`, and `startLoop` with and without an entry. -/
theorem decodeChecksThenInitialises : Obligations.DecodeChecksThenInitialises := by
  intro s hphase
  rw [exec_decode_of_check hphase]
  refine ⟨fun hlarge => ?tooLarge, fun hfits hsmall => ?tooSmall, fun hgeo hcap => ?overCapacity,
    fun hgeo hcap hbits => ?nonempty, fun hgeo hbits => ?empty⟩
  case tooLarge =>
    exact decodeStart_of_error (by decide) (decodeCheck_imageTooLarge ((tooLarge_iff s).mpr hlarge))
  case tooSmall =>
    exact decodeStart_of_error (by decide)
      (decodeCheck_imageTooSmall ((tooLarge_eq_false_iff s).mpr hfits) ((tooSmall_iff s).mpr hsmall))
  case overCapacity =>
    exact decodeStart_of_error (by decide) (decodeCheck_truncatedPayload hgeo hcap)
  case nonempty =>
    rw [decodeStart_of_noError (decodeCheck_noError hgeo hcap), startLoop_of_ne_zero hbits]
  case empty =>
    have hcap : s.decBits.toNat ≤ s.capacity := hbits ▸ Nat.zero_le _
    rw [decodeStart_of_noError (decodeCheck_noError hgeo hcap), hbits, startLoop_zero]

end Sys2Proof.Machine
end

section
/-! Reset (70_reset_and_hazards.md R175): the reset value of every register and buffer. The state after a reset and the
power-on state are both results of `resetRegisters`, so the values are stated once, about `resetRegisters`. -/

namespace Sys2Proof.Machine

/-- What the host reads from each register after reset, by the parameters of the engine (70_reset_and_hazards.md R175). -/
def csrResetValue (p : Params) : Csr → Word
  | .id => 0x44435438#32
  | .imgSize => BitVec.ofNat 32 p.imgBytes
  | .msgSize => BitVec.ofNat 32 p.msgBytes
  | _ => 0#32

/-- STATUS is a function of registers that reset fixes, so it reads as at power-on. -/
theorem statusWord_resetRegisters (s : State) : statusWord (resetRegisters s) = 0#32 :=
  have hreset : statusWord State.reset = 0#32 := by decide
  hreset

theorem Events.word_reset : Events.reset.word = 0#32 := by decide

/-- CAPACITY is computed from WIDTH and HEIGHT, which reset fixes, so it reads as at power-on. -/
theorem capacity_resetRegisters (s : State) : (resetRegisters s).capacity = 0 :=
  have hreset : State.reset.capacity = 0 := by decide
  hreset

theorem csrRead_resetRegisters (c : Csr) (s : State) :
    csrRead c (resetRegisters s) = csrResetValue s.params c := by
  cases c with
  | status => exact statusWord_resetRegisters s
  | intStatus | intEnable => exact Events.word_reset
  | capacity => exact congrArg (BitVec.ofNat 32) (capacity_resetRegisters s)
  | id | cmd | width | height | encLen | decBits | progress | clampCnt | imgSize | msgSize => rfl

theorem irq_resetRegisters (s : State) : (resetRegisters s).irq = false := rfl

theorem Block.getElem_reset (k : Fin 64) : Block.reset[k] = 0#32 := Vector.getElem_ofFn k.isLt

/-- Reset does not depend on what ran before: a released reset leaves the registers and buffers of `resetRegisters`. -/
theorem resetRegisters_releaseReset_assertReset (s : State) :
    resetRegisters (releaseReset (assertReset s)) = releaseReset (assertReset s) := rfl

/-- The power-on state, for any parameters, has its registers and buffers at the values of `resetRegisters`. -/
theorem resetRegisters_powerOn (p : Params) :
    resetRegisters { State.reset with params := p } = { State.reset with params := p } := rfl

/-- Settles O12: either state is `resetRegisters` of a state with the parameters of `s`, whose registers read `csrResetValue`. -/
theorem resetGivesEveryRegisterItsValue : Obligations.ResetGivesEveryRegisterItsValue := by
  intro s u hu
  obtain ⟨v, rfl, hparams⟩ : ∃ v, u = resetRegisters v ∧ v.params = s.params := by
    rcases hu with rfl | rfl
    · exact ⟨_, (resetRegisters_releaseReset_assertReset s).symm, assertReset_params s⟩
    · exact ⟨_, (resetRegisters_powerOn s.params).symm, rfl⟩
  have hblocks (k : Fin 64) : (resetRegisters v).blk[k] = 0#32 ∧ (resetRegisters v).coef[k] = 0#32 ∧
      (resetRegisters v).qblk[k] = 0#32 ∧ (resetRegisters v).params.qtab[k] = s.params.qtab[k] :=
    ⟨Block.getElem_reset k, Block.getElem_reset k, Block.getElem_reset k, by rw [resetRegisters_params, hparams]⟩
  simp only [csrRead_resetRegisters, hparams, csrResetValue, hblocks, irq_resetRegisters, implies_true, and_self]

end Sys2Proof.Machine
end

section
/-! The command word (30_encoding.md R86 to R90): decoding and encoding are inverse to each other. -/

namespace Sys2Proof

/-- Settles O1: the round trip of each command. -/
theorem decodeOfEncodeIsTheCommand : Obligations.DecodeOfEncodeIsTheCommand := fun _ => decode_encode

/-- Settles O2: a word that decodes is legal, and a legal word is the word of a command. -/
theorem encodeOfDecodeIsTheWord : Obligations.EncodeOfDecodeIsTheWord := fun _ _ => decode_eq_ok_iff.1

/-- Settles O5, by running the decoder on the words listed. -/
theorem commandWordsDecodeAsTheSpecListsThem : Obligations.CommandWordsDecodeAsTheSpecListsThem := by
  unfold Obligations.CommandWordsDecodeAsTheSpecListsThem
  decide

end Sys2Proof
end

section
/-! What a command step can do (40_command.md R94 to R96): it completes the command or goes on to the next entry, it changes
only the registers of its command, and it stores only the bytes of its entry. The statements about completion and the frames. -/

namespace Sys2Proof.Machine

/-! ### Completing or going on (40_command.md R95, R96) -/

/-- A step ends its command, in the state that its body leaves, or leaves it in phase LOOP. -/
def CompletesOrLoops (s t : State) : Prop := (∃ u e, BodyFrame s u ∧ t = complete e u) ∨ (BodyFrame s t ∧ t.phase = .loop)

theorem BodyFrame.completes {s u : State} (h : BodyFrame s u) (e : ErrorCode) : CompletesOrLoops s (complete e u) :=
  .inl ⟨u, e, h, rfl⟩

theorem startLoop_completesOrLoops {s u : State} (h : BodyFrame s u) (n : Nat) :
    CompletesOrLoops s (startLoop n u) := by
  rcases startLoop_cases n u with ⟨-, ht⟩ | ⟨-, ht⟩ <;> rw [ht]
  · refine BodyFrame.completes ?_ _
    exact { h with }
  · exact .inr ⟨{ h with }, rfl⟩

theorem advance_completesOrLoops {s u : State} (h : BodyFrame s u) (hloop : u.phase = .loop) :
    CompletesOrLoops s (advance u) := by
  rcases advance_cases u with ⟨-, ht⟩ | ⟨-, ht⟩ <;> rw [ht]
  · refine BodyFrame.completes ?_ _
    exact { h with }
  · exact .inr ⟨{ h with }, hloop⟩

/-! ### The entry bodies of ENCODE and DECODE (45_codec.md R149, R155) -/

/-- The body of ENCODE's entry step, from the state before the step. -/
def encodeStepBody (byte : Byte) (s : State) : State :=
  encodeBlock (payloadBitOf byte s.i) s.i { s with blk := loadedBlock s.img s.width.toNat s.i }

/-- The body of DECODE's entry step, from the state before the step. -/
def decodeStepBody (s : State) : State :=
  receiveBit (dcParity s.params s.img s.width.toNat s.i)
    (quantBody (fdctBody { s with blk := loadedBlock s.img s.width.toNat s.i }))

theorem encodeStepBody_frame (byte : Byte) (s : State) : BodyFrame s (encodeStepBody byte s) :=
  (loadedBlk_frame s _).trans (encodeBlock_frame ..)

theorem decodeStepBody_frame (s : State) : BodyFrame s (decodeStepBody s) :=
  (((loadedBlk_frame s _).trans (fdctBody_frame _)).trans (quantBody_frame _)).trans (receiveBit_frame ..)

@[simp] theorem encodeStepBody_phase (byte : Byte) (s : State) : (encodeStepBody byte s).phase = s.phase := by
  simp [encodeStepBody, encodeBlock]
@[simp] theorem encodeStepBody_n (byte : Byte) (s : State) : (encodeStepBody byte s).n = s.n := by
  simp [encodeStepBody, encodeBlock]
@[simp] theorem encodeStepBody_i (byte : Byte) (s : State) : (encodeStepBody byte s).i = s.i := by
  simp [encodeStepBody, encodeBlock]
@[simp] theorem encodeStepBody_acc (byte : Byte) (s : State) : (encodeStepBody byte s).acc = s.acc := by
  simp [encodeStepBody, encodeBlock]
@[simp] theorem encodeStepBody_msg (byte : Byte) (s : State) : (encodeStepBody byte s).msg = s.msg := by
  simp [encodeStepBody, encodeBlock]
@[simp] theorem encodeStepBody_lastBit (byte : Byte) (s : State) :
    (encodeStepBody byte s).status.lastBit = s.status.lastBit := by
  simp [encodeStepBody, encodeBlock]
theorem encodeStepBody_img (byte : Byte) (s : State) :
    (encodeStepBody byte s).img = s.img.writeAll (storedSamples s.width.toNat s.i (encodeStepBody byte s).blk) := by
  simp [encodeStepBody, encodeBlock]

/-- DECODE's entry step writes its message byte when the byte is complete or the bit is the last. -/
abbrev State.byteDue (s : State) : Prop := s.i % 8 = 7 ∨ s.i + 1 = s.n

/-- DECODE's entry body loads, transforms and quantizes its block, sets LASTBIT, and changes the accumulator and MSG. -/
theorem decodeStepBody_eq (s : State) : decodeStepBody s =
    { s with
      blk := loadedBlock s.img s.width.toNat s.i
      coef := saturateBlock (fdctExact (loadedBlock s.img s.width.toNat s.i))
      qblk := quantize s.params (saturateBlock (fdctExact (loadedBlock s.img s.width.toNat s.i)))
      status := { s.status with
        sat := s.status.sat || clips (fdctExact (loadedBlock s.img s.width.toNat s.i))
        lastBit := dcParity s.params s.img s.width.toNat s.i }
      msg := if s.byteDue then
          s.msg.write (s.i / 8) (accumulate s.acc (dcParity s.params s.img s.width.toNat s.i) s.i) else s.msg
      acc := if s.byteDue then 0#8 else accumulate s.acc (dcParity s.params s.img s.width.toNat s.i) s.i } := by
  by_cases hdue : s.byteDue
  · simp only [if_pos hdue]
    exact if_pos hdue
  · simp only [if_neg hdue]
    exact if_neg hdue

@[simp] theorem decodeStepBody_phase (s : State) : (decodeStepBody s).phase = s.phase := by rw [decodeStepBody_eq]
@[simp] theorem decodeStepBody_n (s : State) : (decodeStepBody s).n = s.n := by rw [decodeStepBody_eq]
@[simp] theorem decodeStepBody_i (s : State) : (decodeStepBody s).i = s.i := by rw [decodeStepBody_eq]
@[simp] theorem decodeStepBody_img (s : State) : (decodeStepBody s).img = s.img := by rw [decodeStepBody_eq]
theorem decodeStepBody_msg (s : State) : (decodeStepBody s).msg =
    if s.byteDue then s.msg.write (s.i / 8) (accumulate s.acc (dcParity s.params s.img s.width.toNat s.i) s.i) else s.msg := by
  rw [decodeStepBody_eq]
theorem decodeStepBody_acc (s : State) : (decodeStepBody s).acc =
    if s.byteDue then 0#8 else accumulate s.acc (dcParity s.params s.img s.width.toNat s.i) s.i := by
  rw [decodeStepBody_eq]
@[simp] theorem decodeStepBody_warnPending (s : State) : (decodeStepBody s).warnPending = s.warnPending := by
  rw [decodeStepBody_eq]

theorem execEncode_steps {s t : State} (h : execEncode s = .next t) :
    (s.phase ≠ .loop ∧ encodeCheck s ≠ .noError ∧ t = complete (encodeCheck s) s) ∨
    (s.phase ≠ .loop ∧ encodeCheck s = .noError ∧ t = startLoop (8 * s.encLen.toNat) { s with clampCnt := 0#32 }) ∨
    (s.phase = .loop ∧ ∃ byte, s.msg.read (s.i / 8) = some byte ∧ s.entryWritten s.i ∧ t = advance (encodeStepBody byte s)) :=
  execEncode_cases h

theorem execDecode_steps {s t : State} (h : execDecode s = .next t) :
    (s.phase ≠ .loop ∧ decodeCheck s ≠ .noError ∧ t = complete (decodeCheck s) s) ∨
    (s.phase ≠ .loop ∧ decodeCheck s = .noError ∧ t = startLoop s.decBits.toNat { s with acc := 0#8 }) ∨
    (s.phase = .loop ∧ s.entryWritten s.i ∧ t = advance (decodeStepBody s)) :=
  execDecode_cases h

/-! ### Completion (40_command.md R95) -/

theorem execTileLoad_completes {idx : Nat} {s t : State} (h : execTileLoad idx s = .next t) : CompletesOrLoops s t := by
  rcases execTileLoad_cases h with ⟨-, rfl⟩ | ⟨-, -, rfl⟩
  · exact (BodyFrame.refl s).completes _
  · exact (loadedBlk_frame s _).completes _

theorem execTileStore_completes {idx : Nat} {s t : State} (h : execTileStore idx s = .next t) : CompletesOrLoops s t := by
  rcases execTileStore_cases h with ⟨-, rfl⟩ | ⟨-, rfl⟩
  · exact (BodyFrame.refl s).completes _
  · exact (tileStoreBody_frame idx s).completes _

theorem execEncode_completesOrLoops {s t : State} (h : execEncode s = .next t) : CompletesOrLoops s t := by
  rcases execEncode_steps h with ⟨-, -, rfl⟩ | ⟨-, -, rfl⟩ | ⟨hloop, byte, -, -, rfl⟩
  · exact (BodyFrame.refl s).completes _
  · refine startLoop_completesOrLoops ?_ _
    exact { BodyFrame.refl s with }
  · exact advance_completesOrLoops (encodeStepBody_frame byte s) ((encodeStepBody_phase byte s).trans hloop)

theorem execDecode_completesOrLoops {s t : State} (h : execDecode s = .next t) : CompletesOrLoops s t := by
  rcases execDecode_steps h with ⟨-, -, rfl⟩ | ⟨-, -, rfl⟩ | ⟨hloop, -, rfl⟩
  · exact (BodyFrame.refl s).completes _
  · refine startLoop_completesOrLoops ?_ _
    exact { BodyFrame.refl s with }
  · exact advance_completesOrLoops (decodeStepBody_frame s) ((decodeStepBody_phase s).trans hloop)

theorem BodyFrame.completes_of_finish {s u t : State} (hu : BodyFrame s u)
    (h : (.next (finish u) : Host.Outcome State Fault Refusal) = .next t) : CompletesOrLoops s t := by
  cases h
  exact hu.completes .noError

theorem exec_completesOrLoops {i : Instr} {s t : State} (h : exec i s = .next t) : CompletesOrLoops s t := by
  cases i with
  | nop => exact (BodyFrame.refl s).completes_of_finish h
  | encode => exact execEncode_completesOrLoops h
  | decode => exact execDecode_completesOrLoops h
  | fdct => exact (fdctBody_frame s).completes_of_finish h
  | idct => exact (idctBody_frame s).completes_of_finish h
  | quant => exact (quantBody_frame s).completes_of_finish h
  | dequant => exact (dequantBody_frame s).completes_of_finish h
  | embed b => exact (embedBody_frame b s).completes_of_finish h
  | extract => exact (extractBody_frame s).completes_of_finish h
  | tileLoad idx => exact execTileLoad_completes h
  | tileStore idx => exact execTileStore_completes h

/-- The same of the engine's turn while BUSY, which may also end an illegal word. -/
theorem engineStep_completesOrLoops {s t : State} (hbusy : s.busy = true) (h : engineStep s = .next t) :
    CompletesOrLoops s t := by
  cases hw : decode s.latched with
  | error e =>
    rw [engineStep_of_illegal hbusy hw, ← raiseError_eq (by decide)] at h
    cases h
    exact (BodyFrame.refl s).completes .illegalCommand
  | ok i => exact exec_completesOrLoops (engineStep_of_legal hbusy hw ▸ h)

theorem CompletesOrLoops.frame {s t : State} (h : CompletesOrLoops s t) (hp : t.phase ≠ .idle) : BodyFrame s t := by
  rcases h with ⟨u, e, -, rfl⟩ | ⟨hu, -⟩
  · exact absurd rfl hp
  · exact hu

/-- The events of a completion: the error code of a command that had no error recorded is that of its own end. -/
theorem CompletesOrLoops.intStatus_of_idle {s t : State} (h : CompletesOrLoops s t) (herr : s.status.err = false)
    (hp : t.phase = .idle) :
    t.intStatus = { done := true, warn := s.intStatus.warn || t.warnPending, erri := s.intStatus.erri || t.status.err } := by
  rcases h with ⟨u, e, hu, rfl⟩ | ⟨-, hloop⟩
  · have herr' : (complete e u).status.err = (e != .noError) := by
      by_cases he : e = .noError
      · simp [he, hu.err, herr]
      · simp [he]
    rw [herr', complete_intStatus, hu.intStatus, complete_warnPending]
  · cases hp.symm.trans hloop

/-- Settles O11: a step that leaves phase LOOP touches no event, and every other step is a completion. -/
theorem completionSetsItsEvents : Obligations.CompletionSetsItsEvents := fun _ _ _ _ herr h =>
  have ht := exec_completesOrLoops h
  ⟨ht.intStatus_of_idle herr, fun hp => ⟨(ht.frame hp).intStatus, (ht.frame hp).err.trans herr⟩⟩

/-! ### The registers of each command (10_state.md sections 3 to 5) -/

/-- What each command may change of the buffers, the counters and the flags: the clauses of the statement that name commands. -/
structure RegisterFrame (c : Instr) (s t : State) : Prop where
  blk : c ≠ .encode → c ≠ .decode → c ≠ .idct → (∀ idx, c ≠ .tileLoad idx) → t.blk = s.blk
  coef : c ≠ .encode → c ≠ .decode → c ≠ .fdct → c ≠ .dequant → t.coef = s.coef
  qblk : c ≠ .encode → c ≠ .decode → c ≠ .quant → (∀ b, c ≠ .embed b) → t.qblk = s.qblk
  loop : c ≠ .encode → c ≠ .decode → t.progress = s.progress ∧ t.n = s.n ∧ t.i = s.i ∧ t.acc = s.acc
  clamps : c ≠ .encode → (∀ idx, c ≠ .tileStore idx) → t.clampCnt = s.clampCnt ∧ t.warnPending = s.warnPending
  lastBit : c ≠ .decode → c ≠ .extract → t.status.lastBit = s.status.lastBit
  satKept : s.status.sat = true → t.status.sat = true
  sat : c ≠ .encode → c ≠ .decode → c ≠ .fdct → c ≠ .idct → c ≠ .dequant → t.status.sat = s.status.sat

theorem complete_lastBit (e : ErrorCode) (s : State) : (complete e s).status.lastBit = s.status.lastBit := by
  rw [complete_status]; split <;> rfl

theorem complete_sat (e : ErrorCode) (s : State) : (complete e s).status.sat = s.status.sat := by
  rw [complete_status]; split <;> rfl

theorem complete_ovr (e : ErrorCode) (s : State) : (complete e s).status.ovr = s.status.ovr := by
  rw [complete_status]; split <;> rfl

theorem RegisterFrame.refl (c : Instr) (s : State) : RegisterFrame c s s := by constructor <;> simp +contextual

theorem RegisterFrame.complete {c : Instr} {s u : State} (h : RegisterFrame c s u) (e : ErrorCode) :
    RegisterFrame c s (complete e u) :=
  { h with
    lastBit := fun hd hx => (complete_lastBit e u).trans (h.lastBit hd hx)
    satKept := fun hs => (complete_sat e u).trans (h.satKept hs)
    sat := fun he hd hf hi hq => (complete_sat e u).trans (h.sat he hd hf hi hq) }

theorem RegisterFrame.of_finish {c : Instr} {s u t : State} (hu : RegisterFrame c s u)
    (h : (.next (finish u) : Host.Outcome State Fault Refusal) = .next t) : RegisterFrame c s t := by
  cases h
  exact hu.complete .noError

/-- `startLoop` and `advance` change only what ENCODE and DECODE may change. -/
theorem RegisterFrame.startLoop {c : Instr} {s u : State} (hc : c = .encode ∨ c = .decode) (h : RegisterFrame c s u) (n : Nat) :
    RegisterFrame c s (startLoop n u) := by
  have hloop {P : Prop} (he : c ≠ .encode) (hd : c ≠ .decode) : P := (hc.elim he hd).elim
  rcases startLoop_cases n u with ⟨-, ht⟩ | ⟨-, ht⟩ <;> rw [ht]
  · refine complete ?_ _
    exact { h with loop := hloop }
  · exact { h with loop := hloop }

theorem RegisterFrame.advance {c : Instr} {s u : State} (hc : c = .encode ∨ c = .decode) (h : RegisterFrame c s u) :
    RegisterFrame c s (advance u) := by
  have hloop {P : Prop} (he : c ≠ .encode) (hd : c ≠ .decode) : P := (hc.elim he hd).elim
  rcases advance_cases u with ⟨-, ht⟩ | ⟨-, ht⟩ <;> rw [ht]
  · refine complete ?_ _
    exact { h with loop := hloop }
  · exact { h with loop := hloop }

theorem execEncode_registerFrame {s t : State} (h : execEncode s = .next t) : RegisterFrame .encode s t := by
  rcases execEncode_steps h with ⟨-, -, rfl⟩ | ⟨-, -, rfl⟩ | ⟨-, byte, -, -, rfl⟩
  · exact (RegisterFrame.refl _ s).complete _
  · refine RegisterFrame.startLoop (.inl rfl) ?_ _
    exact { RegisterFrame.refl .encode s with clamps := fun h => absurd rfl h }
  · refine RegisterFrame.advance (.inl rfl) ?_
    constructor <;> simp +contextual [encodeStepBody, encodeBlock]

theorem execDecode_registerFrame {s t : State} (h : execDecode s = .next t) : RegisterFrame .decode s t := by
  rcases execDecode_steps h with ⟨-, -, rfl⟩ | ⟨-, -, rfl⟩ | ⟨-, -, rfl⟩
  · exact (RegisterFrame.refl _ s).complete _
  · refine RegisterFrame.startLoop (.inr rfl) ?_ _
    exact { RegisterFrame.refl .decode s with loop := fun _ h => absurd rfl h }
  · refine RegisterFrame.advance (.inr rfl) ?_
    rw [decodeStepBody_eq]
    constructor <;> simp +contextual

theorem execTileLoad_registerFrame {idx : Nat} {s t : State} (h : execTileLoad idx s = .next t) :
    RegisterFrame (.tileLoad idx) s t := by
  rcases execTileLoad_cases h with ⟨-, rfl⟩ | ⟨-, -, rfl⟩
  · exact (RegisterFrame.refl _ s).complete _
  · refine RegisterFrame.complete ?_ _
    exact { RegisterFrame.refl (.tileLoad idx) s with blk := fun _ _ _ h => absurd rfl (h idx) }

theorem execTileStore_registerFrame {idx : Nat} {s t : State} (h : execTileStore idx s = .next t) :
    RegisterFrame (.tileStore idx) s t := by
  rcases execTileStore_cases h with ⟨-, rfl⟩ | ⟨-, rfl⟩
  · exact (RegisterFrame.refl _ s).complete _
  · refine RegisterFrame.complete ?_ _
    constructor <;> simp +contextual

theorem exec_registerFrame {c : Instr} {s t : State} (h : exec c s = .next t) : RegisterFrame c s t := by
  cases c with
  | nop => exact (RegisterFrame.refl _ s).of_finish h
  | encode => exact execEncode_registerFrame h
  | decode => exact execDecode_registerFrame h
  | fdct => exact RegisterFrame.of_finish (by constructor <;> simp +contextual) h
  | idct => exact RegisterFrame.of_finish (by constructor <;> simp +contextual) h
  | quant => exact RegisterFrame.of_finish (by constructor <;> simp +contextual) h
  | dequant => exact RegisterFrame.of_finish (by constructor <;> simp +contextual) h
  | embed b => exact RegisterFrame.of_finish (by constructor <;> simp +contextual) h
  | extract => exact RegisterFrame.of_finish (by constructor <;> simp +contextual [extractBody]) h
  | tileLoad idx => exact execTileLoad_registerFrame h
  | tileStore idx => exact execTileStore_registerFrame h

/-- Settles O54: the first clause is the frame of every command body, the others are `RegisterFrame`. -/
theorem commandsChangeOnlyTheirRegisters : Obligations.CommandsChangeOnlyTheirRegisters := by
  intro c s t h
  have hr := exec_registerFrame h
  refine ⟨?_, hr.blk, hr.coef, hr.qblk, hr.loop, hr.clamps, hr.lastBit, hr.satKept, hr.sat⟩
  obtain ⟨u, hu, rfl | ⟨e, rfl⟩⟩ := exec_commandStep h
  · exact ⟨hu.params, hu.width, hu.height, hu.encLen, hu.decBits, hu.intEnable, hu.latched, hu.rstN, hu.lastResponse,
      hu.host, hu.schedule, hu.freeCount, hu.ovr⟩
  · exact ⟨hu.params, hu.width, hu.height, hu.encLen, hu.decBits, hu.intEnable, hu.latched, hu.rstN, hu.lastResponse,
      hu.host, hu.schedule, hu.freeCount, (complete_ovr e u).trans hu.ovr⟩

/-! ### The bytes of each command (20_memory.md R63, R71) -/

/-- The command `c`, in state `s`, stores the samples of entry `idx` (43_tiler.md R130; 45_codec.md R149). -/
def StoresEntry (c : Instr) (s : State) (idx : Nat) : Prop :=
  (c = .tileStore idx ∧ tileCheck idx s = .noError) ∨ (c = .encode ∧ s.phase = .loop ∧ idx = s.i)

/-- The command `c`, in state `s`, writes the message byte of the current entry (45_codec.md R155). -/
def StoresByte (c : Instr) (s : State) : Prop := c = .decode ∧ s.phase = .loop ∧ s.byteDue

/-- Of IMG a step stores at most the 64 samples of one entry, of MSG at most one byte. -/
structure StorageFrame (c : Instr) (s t : State) : Prop where
  img : t.img = s.img ∨
    ∃ idx blk, StoresEntry c s idx ∧ t.img = s.img.writeAll (storedSamples s.width.toNat idx blk)
  msg : t.msg = s.msg ∨ (StoresByte c s ∧ ∃ v, t.msg = s.msg.write (s.i / 8) v)

theorem StorageFrame.of_eq {c : Instr} {s t : State} (himg : t.img = s.img) (hmsg : t.msg = s.msg) : StorageFrame c s t :=
  ⟨.inl himg, .inl hmsg⟩

theorem StorageFrame.of_finish {c : Instr} {s u t : State} (himg : u.img = s.img) (hmsg : u.msg = s.msg)
    (h : (.next (finish u) : Host.Outcome State Fault Refusal) = .next t) : StorageFrame c s t := by
  cases h
  exact .of_eq himg hmsg

theorem startLoop_memories (n : Nat) (s : State) : (startLoop n s).img = s.img ∧ (startLoop n s).msg = s.msg := by
  rcases startLoop_cases n s with ⟨-, ht⟩ | ⟨-, ht⟩ <;> rw [ht] <;> exact ⟨rfl, rfl⟩

theorem advance_memories (s : State) : (advance s).img = s.img ∧ (advance s).msg = s.msg := by
  rcases advance_cases s with ⟨-, ht⟩ | ⟨-, ht⟩ <;> rw [ht] <;> exact ⟨rfl, rfl⟩

theorem execEncode_storageFrame {s t : State} (h : execEncode s = .next t) : StorageFrame .encode s t := by
  rcases execEncode_steps h with ⟨-, -, rfl⟩ | ⟨-, -, rfl⟩ | ⟨hloop, byte, -, -, rfl⟩
  · exact .of_eq rfl rfl
  · exact .of_eq (startLoop_memories ..).1 (startLoop_memories ..).2
  · obtain ⟨himg, hmsg⟩ := advance_memories (encodeStepBody byte s)
    exact ⟨.inr ⟨s.i, _, .inr ⟨rfl, hloop, rfl⟩, himg.trans (encodeStepBody_img byte s)⟩,
      .inl (hmsg.trans (encodeStepBody_msg byte s))⟩

theorem execDecode_storageFrame {s t : State} (h : execDecode s = .next t) : StorageFrame .decode s t := by
  rcases execDecode_steps h with ⟨-, -, rfl⟩ | ⟨-, -, rfl⟩ | ⟨hloop, -, rfl⟩
  · exact .of_eq rfl rfl
  · exact .of_eq (startLoop_memories ..).1 (startLoop_memories ..).2
  · obtain ⟨himg, hmsg⟩ := advance_memories (decodeStepBody s)
    refine ⟨.inl (himg.trans (decodeStepBody_img s)), ?_⟩
    by_cases hdue : s.byteDue
    · exact .inr ⟨⟨rfl, hloop, hdue⟩, _, (hmsg.trans (decodeStepBody_msg s)).trans (if_pos hdue)⟩
    · exact .inl ((hmsg.trans (decodeStepBody_msg s)).trans (if_neg hdue))

theorem exec_storageFrame {c : Instr} {s t : State} (h : exec c s = .next t) : StorageFrame c s t := by
  cases c with
  | nop => exact .of_finish (u := s) rfl rfl h
  | encode => exact execEncode_storageFrame h
  | decode => exact execDecode_storageFrame h
  | fdct => exact .of_finish (fdctBody_img s) (fdctBody_msg s) h
  | idct => exact .of_finish (idctBody_img s) (idctBody_msg s) h
  | quant => exact .of_finish (quantBody_img s) (quantBody_msg s) h
  | dequant => exact .of_finish (dequantBody_img s) (dequantBody_msg s) h
  | embed b => exact .of_finish (embedBody_img b s) (embedBody_msg b s) h
  | extract => exact .of_finish (u := extractBody s) rfl rfl h
  | tileLoad idx =>
    rcases execTileLoad_cases h with ⟨-, rfl⟩ | ⟨-, -, rfl⟩ <;> exact .of_eq rfl rfl
  | tileStore idx =>
    rcases execTileStore_cases h with ⟨-, rfl⟩ | ⟨hk, rfl⟩
    · exact .of_eq rfl rfl
    · exact ⟨.inr ⟨idx, s.blk, .inl ⟨rfl, hk⟩, tileStoreBody_img idx s⟩, .inl (tileStoreBody_msg idx s)⟩

/-- Settles O55: the bytes of a stored entry are those at its sample addresses. -/
theorem commandsStoreOnlyTheirBytes : Obligations.CommandsStoreOnlyTheirBytes := by
  intro c s t h a
  obtain ⟨himg, hmsg⟩ := exec_storageFrame h
  refine ⟨fun hkeep => ?_, fun hkeep => ?_⟩
  · rcases himg with himg | ⟨idx, blk, hidx, himg⟩ <;> rw [himg]
    refine Memory.read_writeAll_of_notMem _ fun x hx hax => hkeep ?_
    obtain ⟨k, rfl⟩ := mem_storedSamples.mp hx
    rcases hidx with ⟨rfl, -⟩ | ⟨rfl, hloop, rfl⟩
    · exact .inl ⟨idx, rfl, k, hax⟩
    · exact .inr ⟨rfl, hloop, k, hax⟩
  · rcases hmsg with hmsg | ⟨⟨rfl, hloop, hdue⟩, v, hmsg⟩ <;> rw [hmsg]
    exact Memory.read_write_of_ne _ _ fun ha => hkeep ⟨rfl, hloop, hdue, ha⟩

end Sys2Proof.Machine
end

section
/-! The invariant and reset (10_state.md section 5; 70_reset_and_hazards.md section 1): no command and no host access reaches
beyond the memories, what a reset leaves of them, and the statements about reset, the invariant and the faults of the engine. -/

namespace Sys2Proof.Machine

/-! ### The bytes that a command reaches are in range (20_memory.md R71; 45_codec.md R146, R153) -/

theorem sampleAddr_lt_image {s : State} {idx k : Nat} (hgeo : s.geometryOk) (hidx : idx < s.capacity) (hk : k < 64) :
    sampleAddr s.width.toNat idx k < s.width.toNat * s.height.toNat * 3 :=
  Nat.lt_of_lt_of_le (sampleAddr_lt hgeo.2.1 hidx hk) (tiledRows_bytes_le ..)

theorem sampleAddr_lt_imgBytes {s : State} {idx k : Nat} (hgeo : s.geometryOk) (hidx : idx < s.capacity) (hk : k < 64) :
    sampleAddr s.width.toNat idx k < s.params.imgBytes :=
  Nat.lt_of_lt_of_le (sampleAddr_lt_image hgeo hidx hk) hgeo.1

/-- The entries are 64 bytes each of the image. -/
theorem capacity_mul_le (s : State) : 64 * s.capacity ≤ s.width.toNat * s.height.toNat * 3 := by
  have hh : 8 * (s.height.toNat / 8) ≤ s.height.toNat := Nat.mul_div_le ..
  have hw : 8 * (s.width.toNat / 8) ≤ s.width.toNat := Nat.mul_div_le ..
  have := Nat.mul_le_mul hh hw
  rw [State.capacity, Nat.mul_comm s.width.toNat]
  linarith

/-- The message byte of an entry exists: MSG has a byte for each 512 bytes of IMG (00_scope.md R10). -/
theorem messageByte_lt {s : State} {i : Nat} (hp : s.params.valid) (hgeo : s.geometryOk) (hi : i < s.capacity) :
    i / 8 < s.params.msgBytes := by
  have hcap := capacity_mul_le s
  have hmsg := hp.2.1.2.2
  have hfit := hgeo.1
  omega

/-- In phase LOOP the entry and its message byte exist. -/
theorem loop_inRange {s : State} (hs : s.loopOk) (hloop : s.phase = .loop) : s.geometryOk ∧ s.i < s.capacity := by
  obtain ⟨hi, -, ⟨-, hk, hn⟩ | ⟨-, hk, hn, -⟩⟩ := hs hloop
  · have ⟨hgeo, hcap⟩ := encodeCheck_ok hk
    exact ⟨hgeo, by omega⟩
  · have ⟨hgeo, hcap⟩ := decodeCheck_ok hk
    exact ⟨hgeo, by omega⟩

theorem StoresEntry.inRange {c : Instr} {s : State} {idx : Nat} (hs : s.loopOk) (h : StoresEntry c s idx) :
    s.geometryOk ∧ idx < s.capacity := by
  rcases h with ⟨-, hk⟩ | ⟨-, hloop, rfl⟩
  · exact tileCheck_ok hk
  · exact loop_inRange hs hloop

theorem storedSamples_lt {s : State} {idx : Nat} (blk : Block) (hgeo : s.geometryOk) (hidx : idx < s.capacity) :
    ∀ x ∈ storedSamples s.width.toNat idx blk, x.1 < s.params.imgBytes := by
  intro x hx
  obtain ⟨k, rfl⟩ := mem_storedSamples.mp hx
  exact sampleAddr_lt_imgBytes hgeo hidx k.isLt

theorem StorageFrame.memoriesOk {c : Instr} {s t : State} (h : StorageFrame c s t) (hparams : t.params = s.params)
    (hs : s.Inv) : t.memoriesOk := by
  obtain ⟨hp, ⟨himg, himg', hmsg, hmsg'⟩, -, -, hloop, -⟩ := hs
  rw [State.memoriesOk, hparams]
  have hi : t.img.wf ∧ t.img.within s.params.imgBytes := by
    rcases h.img with ht | ⟨idx, blk, hidx, ht⟩ <;> rw [ht]
    · exact ⟨himg, himg'⟩
    · obtain ⟨hgeo, hcap⟩ := hidx.inRange hloop
      exact ⟨Memory.wf_writeAll _ himg, Memory.within_writeAll (storedSamples_lt blk hgeo hcap) himg'⟩
  have hm : t.msg.wf ∧ t.msg.within s.params.msgBytes := by
    rcases h.msg with ht | ⟨⟨-, hphase, -⟩, v, ht⟩ <;> rw [ht]
    · exact ⟨hmsg, hmsg'⟩
    · obtain ⟨hgeo, hi⟩ := loop_inRange hloop hphase
      exact ⟨Memory.wf_write _ _ hmsg, Memory.within_write _ (messageByte_lt hp hgeo hi) hmsg'⟩
  exact ⟨hi.1, hi.2, hm.1, hm.2⟩

/-! ### The engine keeps the invariant -/

/-- A state in phase IDLE meets the clauses about a running command. -/
theorem inv_of_idle {s : State} (hp : s.params.valid) (hm : s.memoriesOk)
    (hst : s.status.err = true ↔ s.status.errCode ≠ .noError) (hidle : s.phase = .idle) (hr : s.resetOk) : s.Inv := by
  refine ⟨hp, hm, ⟨hst, fun hb => absurd hidle ((busy_iff s).1 hb)⟩, fun h => ?_, fun h => ?_, hr⟩ <;> cases hidle.symm.trans h

theorem resetOk_of_rstN {s : State} (h : s.rstN = true) : s.resetOk := fun h' => by cases h.symm.trans h'

theorem complete_statusOk {s : State} (e : ErrorCode) (h : s.status.err = true ↔ s.status.errCode ≠ .noError) :
    (complete e s).status.err = true ↔ (complete e s).status.errCode ≠ .noError := by
  by_cases he : e = .noError <;> simp [he, h]

theorem BodyFrame.statusOk {s u : State} (h : BodyFrame s u) (hs : s.status.err = true ↔ s.status.errCode ≠ .noError) :
    u.status.err = true ↔ u.status.errCode ≠ .noError := by
  rw [h.err, h.errCode, hs]

/-- The checks of a running command give the same answer at each of its steps. -/
theorem BodyFrame.encodeCheck {s u : State} (h : BodyFrame s u) : encodeCheck u = encodeCheck s := by
  rw [Machine.encodeCheck, State.tooLarge, State.tooSmall, State.capacity, h.params, h.width, h.height, h.encLen]
  rfl

theorem BodyFrame.decodeCheck {s u : State} (h : BodyFrame s u) : decodeCheck u = decodeCheck s := by
  rw [Machine.decodeCheck, State.tooLarge, State.tooSmall, State.capacity, h.params, h.width, h.height, h.decBits]
  rfl

/-- A loop that has just started is before its first entry. -/
theorem startLoop_running {n : Nat} {s : State} (h : (startLoop n s).phase = .loop) :
    0 < n ∧ startLoop n s = { s with progress := 0#32, n := n, i := 0, phase := .loop } := by
  rcases startLoop_cases n s with ⟨-, h0⟩ | ⟨hn, h0⟩
  · rw [h0] at h; cases h
  · exact ⟨Nat.pos_of_ne_zero hn, h0⟩

/-- A loop that goes on is before the next entry. -/
theorem advance_running {s : State} (h : (advance s).phase = .loop) :
    s.i + 1 ≠ s.n ∧ advance s = { s with i := s.i + 1, progress := BitVec.ofNat 32 (s.i + 1) } := by
  rcases advance_cases s with ⟨-, h0⟩ | h0
  · rw [h0] at h; cases h
  · exact h0

theorem execEncode_loopOk {s t : State} (hlatched : decode s.latched = .ok .encode) (hs : s.loopOk)
    (h : execEncode s = .next t) : t.loopOk := by
  intro ht
  rcases execEncode_steps h with ⟨-, -, rfl⟩ | ⟨-, hk, rfl⟩ | ⟨hloop, byte, -, -, rfl⟩
  · cases ht
  · obtain ⟨hn, h0⟩ := startLoop_running ht
    rw [h0]
    exact ⟨hn, rfl, .inl ⟨hlatched, hk, rfl⟩⟩
  · obtain ⟨hi, -, ⟨-, hk, hn⟩ | ⟨hdecode, -⟩⟩ := hs hloop
    · obtain ⟨hlast, h0⟩ := advance_running ht
      have hframe := encodeStepBody_frame byte s
      rw [encodeStepBody_i, encodeStepBody_n] at hlast
      rw [h0]
      refine ⟨?_, rfl, .inl ⟨?_, hframe.encodeCheck.trans hk, ?_⟩⟩
      · simp only [encodeStepBody_i, encodeStepBody_n]; omega
      · rw [hframe.latched, hlatched]
      · rw [encodeStepBody_n, hn, hframe.encLen]
    · cases hlatched.symm.trans hdecode

/-- Each bit received goes into the accumulator below the bits that it holds. -/
theorem accumulate_mod {acc : Byte} {i : Nat} (b : Bool) (h : acc.toNat % 2 ^ (8 - i % 8) = 0) (hi : i % 8 ≠ 7) :
    (accumulate acc b i).toNat % 2 ^ (8 - (i + 1) % 8) = 0 := by
  have hweight : 8 - (i + 1) % 8 = 7 - i % 8 := by omega
  have hbyte : 2 ^ (7 - i % 8) ∣ 2 ^ 8 := Nat.pow_dvd_pow 2 (by omega)
  have hacc : 2 ^ (7 - i % 8) ∣ acc.toNat := (Nat.pow_dvd_pow 2 (by omega)).trans (Nat.dvd_of_mod_eq_zero h)
  rw [hweight, accumulate, BitVec.toNat_add, BitVec.toNat_ofNat, Nat.add_mod_mod, Nat.mod_mod_of_dvd _ hbyte]
  exact Nat.mod_eq_zero_of_dvd (Nat.dvd_add hacc (Nat.dvd_mul_left ..))

theorem execDecode_loopOk {s t : State} (hlatched : decode s.latched = .ok .decode) (hcheck : s.phase = .check ∨ s.phase = .loop)
    (hw : s.checkOk) (hs : s.loopOk) (h : execDecode s = .next t) : t.loopOk := by
  intro ht
  rcases execDecode_steps h with ⟨-, -, rfl⟩ | ⟨hphase, hk, rfl⟩ | ⟨hloop, -, rfl⟩
  · cases ht
  · obtain ⟨hn, h0⟩ := startLoop_running ht
    rw [h0]
    exact ⟨hn, rfl, .inr ⟨hlatched, hk, rfl, hw (hcheck.resolve_right hphase), rfl⟩⟩
  · obtain ⟨hi, -, ⟨hencode, -⟩ | ⟨-, hk, hn, hwarn, hacc⟩⟩ := hs hloop
    · cases hlatched.symm.trans hencode
    · obtain ⟨hlast, h0⟩ := advance_running ht
      have hframe := decodeStepBody_frame s
      rw [decodeStepBody_i, decodeStepBody_n] at hlast
      rw [h0]
      refine ⟨?_, rfl, .inr ⟨?_, hframe.decodeCheck.trans hk, ?_, ?_, ?_⟩⟩
      · simp only [decodeStepBody_i, decodeStepBody_n]; omega
      · rw [hframe.latched, hlatched]
      · rw [decodeStepBody_n, hn, hframe.decBits]
      · rw [decodeStepBody_warnPending, hwarn]
      · simp only [decodeStepBody_acc, decodeStepBody_i]
        split
        · rfl
        · rename_i hdue
          exact accumulate_mod _ hacc fun h7 => hdue (.inl h7)

/-- In phase LOOP after a step means that the command is ENCODE or DECODE. -/
theorem exec_loopOk {c : Instr} {s t : State} (hlatched : decode s.latched = .ok c) (hbusy : s.busy = true) (hs : s.Inv)
    (h : exec c s = .next t) : t.loopOk := by
  obtain ⟨-, -, -, hw, hl, -⟩ := hs
  have hphase : s.phase = .check ∨ s.phase = .loop := by
    have := (busy_iff s).1 hbusy
    cases hp : s.phase <;> simp_all
  cases c with
  | encode => exact execEncode_loopOk hlatched hl h
  | decode => exact execDecode_loopOk hlatched hphase hw hl h
  | tileLoad idx => rcases execTileLoad_cases h with ⟨-, rfl⟩ | ⟨-, -, rfl⟩ <;> exact nofun
  | tileStore idx => rcases execTileStore_cases h with ⟨-, rfl⟩ | ⟨-, rfl⟩ <;> exact nofun
  | nop | fdct | idct | quant | dequant | embed b | extract => cases h; exact nofun

theorem exec_inv {c : Instr} {s t : State} (hlatched : decode s.latched = .ok c) (hbusy : s.busy = true) (hrst : s.rstN = true)
    (hs : s.Inv) (h : exec c s = .next t) : t.Inv := by
  have hparams := (exec_commandStep h).params_eq
  have hp : t.params.valid := hparams ▸ hs.1
  have hm := (exec_storageFrame h).memoriesOk hparams hs
  have hl := exec_loopOk hlatched hbusy hs h
  obtain ⟨-, -, ⟨hst, herr⟩, -⟩ := hs
  rcases exec_completesOrLoops h with ⟨u, e, hu, rfl⟩ | ⟨hu, hloop⟩
  · exact inv_of_idle hp hm (complete_statusOk e (hu.statusOk hst)) rfl (resetOk_of_rstN (hu.rstN.trans hrst))
  · refine ⟨hp, hm, ⟨hu.statusOk hst, fun _ => hu.err.trans (herr hbusy)⟩, fun h => ?_, hl,
      resetOk_of_rstN (hu.rstN.trans hrst)⟩
    cases hloop.symm.trans h

theorem engineStep_inv {s t : State} (hrst : s.rstN = true) (hs : s.Inv) (h : engineStep s = .next t) : t.Inv := by
  cases hbusy : s.busy with
  | false =>
    rw [engineStep, hbusy] at h
    cases h
    exact hs
  | true =>
    cases hw : decode s.latched with
    | ok c => exact exec_inv hw hbusy hrst hs (engineStep_of_legal hbusy hw ▸ h)
    | error e =>
      rw [engineStep_of_illegal hbusy hw, ← raiseError_eq (by decide)] at h
      cases h
      obtain ⟨hp, hm, ⟨hst, -⟩, -⟩ := hs
      exact inv_of_idle hp hm (complete_statusOk _ hst) rfl (resetOk_of_rstN hrst)

/-! ### The host keeps the invariant -/

theorem mem_bytesOfWord {a n : Nat} {v : Word} {x : Nat × Byte} :
    x ∈ bytesOfWord a n v ↔ ∃ j < n, x = (a + j, v.extractLsb' (8 * j) 8) := by
  simp [bytesOfWord, eq_comm]

theorem bytes_cases {x : Transaction} {n : Nat} (h : x.bytes = some n) : n = 1 ∨ n = 2 ∨ n = 4 := by
  unfold Transaction.bytes at h
  split_ifs at h <;> simp_all

/-- An access that is legal for its region is aligned (20_memory.md R58). -/
theorem legalShape_aligned {r : Region} {x : Transaction} {n : Nat} (hl : legalShape r x = true) (hn : x.bytes = some n) :
    x.addr.toNat % n = 0 := by
  simp only [legalShape, hn, Bool.and_eq_true, beq_iff_eq] at hl
  exact hl.1

theorem legalShape_bytes {r : Region} {x : Transaction} (hl : legalShape r x = true) : ∃ n, x.bytes = some n := by
  cases hn : x.bytes with
  | none => simp [legalShape, hn] at hl
  | some n => exact ⟨n, rfl⟩

/-- An aligned access that starts inside a memory of whole words ends inside it. -/
theorem access_fits {off base a n size : Nat} (hn : n = 1 ∨ n = 2 ∨ n = 4) (haddr : off = base + a) (ha : a < size)
    (halign : off % n = 0) (hbase : base % 4 = 0) (hsize : size % 4 = 0) : a + n ≤ size := by
  rcases hn with rfl | rfl | rfl <;> omega

theorem msgAccess_fits {p : Params} {x : Transaction} {j n : Nat} (hp : p.valid) (hr : regionOf p x.addr.toNat = .msg j)
    (hl : legalShape (regionOf p x.addr.toNat) x = true) (hn : x.bytes = some n) : j + n ≤ p.msgBytes :=
  have ⟨haddr, hj⟩ := regionOf_msg hr
  access_fits (bytes_cases hn) haddr hj (legalShape_aligned hl hn) (by decide) hp.2.1.1

theorem imgAccess_fits {p : Params} {x : Transaction} {a n : Nat} (hp : p.valid) (hr : regionOf p x.addr.toNat = .img a)
    (hl : legalShape (regionOf p x.addr.toNat) x = true) (hn : x.bytes = some n) : a + n ≤ p.imgBytes :=
  have ⟨haddr, ha⟩ := regionOf_img hr
  access_fits (bytes_cases hn) haddr ha (legalShape_aligned hl hn) (by decide) hp.1.1

theorem bytesOfWord_lt {a n size : Nat} (h : a + n ≤ size) (v : Word) : ∀ x ∈ bytesOfWord a n v, x.1 < size := by
  intro x hx
  obtain ⟨j, hj, rfl⟩ := mem_bytesOfWord.mp hx
  exact Nat.lt_of_lt_of_le (Nat.add_lt_add_left hj a) h

theorem whileIdle_inv {s s' : State} (hs : s.Inv) (h : s.phase = .idle → s'.Inv) : (whileIdle s s').1.Inv := by
  rcases whileIdle_cases s s' with ⟨-, hw⟩ | ⟨hidle, hw⟩ <;> rw [hw]
  · exact hs
  · exact h ((not_busy_iff s).1 hidle)

/-- A register write changes nothing of the memories, and of a BUSY engine nothing that the invariant speaks of. -/
theorem csrWrite_inv {s : State} (hrst : s.rstN = true) (hs : s.Inv) (c : Csr) (v : Word) : (csrWrite c v s).1.Inv := by
  obtain ⟨hp, hm, hst, hw, hl, -⟩ := id hs
  have operand {s' : State} (hp' : s'.params = s.params) (hm' : s'.memoriesOk) (hst' : s'.status = s.status)
      (hphase' : s'.phase = s.phase) (hrst' : s'.rstN = s.rstN) : (whileIdle s s').1.Inv :=
    whileIdle_inv hs fun hidle => inv_of_idle (hp' ▸ hp) hm' (hst' ▸ hst.1) (hphase'.trans hidle)
      (resetOk_of_rstN (hrst'.trans hrst))
  cases c with
  | id | capacity | progress | imgSize | msgSize => exact hs
  | width | height | encLen | decBits | clampCnt => exact operand rfl hm rfl rfl rfl
  | status => exact ⟨hp, hm, hst, hw, hl, resetOk_of_rstN hrst⟩
  | intStatus => exact ⟨hp, hm, hst, hw, hl, resetOk_of_rstN hrst⟩
  | intEnable => exact ⟨hp, hm, hst, hw, hl, resetOk_of_rstN hrst⟩
  | cmd =>
    cases hbusy : s.busy with
    | true =>
      rw [csrWrite_cmd_of_busy hbusy]
      exact ⟨hp, hm, hst, hw, hl, resetOk_of_rstN hrst⟩
    | false =>
      rw [csrWrite_cmd_of_idle hbusy]
      exact ⟨hp, hm, ⟨by simp, fun _ => rfl⟩, fun _ => rfl, nofun, resetOk_of_rstN hrst⟩

/-- What a write of a memory keeps: the canonical form, and bytes that exist. -/
theorem busWrite_inv {s : State} (hrst : s.rstN = true) (hs : s.Inv) (x : Transaction) : (busWrite x s).1.Inv := by
  by_cases hl : legalShape (regionOf s.params x.addr.toNat) x = true
  · obtain ⟨hp, ⟨himg, himg', hmsg, hmsg'⟩, hst, -⟩ := id hs
    obtain ⟨n, hn⟩ := legalShape_bytes hl
    have store {s' : State} (hp' : s'.params = s.params) (hm' : s'.memoriesOk) (hst' : s'.status = s.status)
        (hphase' : s'.phase = s.phase) (hrst' : s'.rstN = s.rstN) : (whileIdle s s').1.Inv :=
      whileIdle_inv hs fun hidle => inv_of_idle (hp' ▸ hp) hm' (hst' ▸ hst.1) (hphase'.trans hidle)
        (resetOk_of_rstN (hrst'.trans hrst))
    simp only [busWrite, hl, if_true, hn, Option.getD_some]
    cases hr : regionOf s.params x.addr.toNat with
    | csr c => exact csrWrite_inv hrst hs c _
    | qtab k | reserved => exact hs
    | blk k | coef k | qblk k => exact store rfl ⟨himg, himg', hmsg, hmsg'⟩ rfl rfl rfl
    | msg j =>
      exact store rfl ⟨himg, himg', Memory.wf_writeAll _ hmsg,
        Memory.within_writeAll (bytesOfWord_lt (msgAccess_fits hp hr hl hn) _) hmsg'⟩ rfl rfl rfl
    | img a =>
      exact store rfl ⟨Memory.wf_writeAll _ himg,
        Memory.within_writeAll (bytesOfWord_lt (imgAccess_fits hp hr hl hn) _) himg', hmsg, hmsg'⟩ rfl rfl rfl
  · rw [busWrite, if_neg hl]
    exact hs

/-- With `rst_n` at 1 the invariant does not speak of the environment: the answer on the bus, the host, the schedule. -/
theorem inv_environment {s : State} (hrst : s.rstN = true) (hs : s.Inv) (r : Option Response) (stmts : List HostStmt)
    (turns : List Turn) : State.Inv { s with lastResponse := r, host := stmts, schedule := turns } := by
  obtain ⟨hp, hm, hst, hw, hl, -⟩ := hs
  exact ⟨hp, hm, hst, hw, hl, resetOk_of_rstN hrst⟩

theorem busWrite_rstN (x : Transaction) (s : State) : (busWrite x s).1.rstN = s.rstN := by
  rcases busWrite_cases x s with ⟨c, -, hb⟩ | ⟨_, _, _, _, _, hb⟩ <;> rw [hb]
  cases c <;> simp [csrWrite, whileIdle_keeps State.rstN, apply_ite]

theorem hostAccess_inv {x : Transaction} {s t : State} (hrst : s.rstN = true) (hs : s.Inv) (h : hostAccess x s = .next t) :
    t.Inv := by
  rcases hostAccess_cases h with ⟨-, rfl⟩ | ⟨-, r, d, rfl⟩
  · exact inv_environment ((busWrite_rstN x s).trans hrst) (busWrite_inv hrst hs x) _ _ _
  · exact inv_environment hrst hs _ _ _

theorem hostStep_inv {s t : State} (hrst : s.rstN = true) (hs : s.Inv) (h : hostStep s = .next t) : t.Inv := by
  have access {x : Transaction} {stmts : List HostStmt} (h : hostAccess x { s with host := stmts } = .next t) : t.Inv :=
    hostAccess_inv (s := { s with host := stmts }) hrst (inv_environment hrst hs _ _ _) h
  unfold hostStep at h
  split at h
  · cases h; exact hs
  · exact access h
  · exact access h
  · split at h
    · exact access h
    · cases h

/-! ### Reset (70_reset_and_hazards.md R178 to R180) -/

/-- The bytes of IMG that an abandoned command could have written are those of the entries that it would store. -/
theorem mem_abandonedImg {s : State} {a : Nat} : a ∈ abandonedImg s ↔ s.phase ≠ .idle ∧
    ((decode s.latched = .ok .encode ∧ encodeCheck s = .noError ∧
        ∃ i < 8 * s.encLen.toNat, a ∈ entryAddrs s.width.toNat i) ∨
      (∃ idx, decode s.latched = .ok (.tileStore idx) ∧ tileCheck idx s = .noError ∧ a ∈ entryAddrs s.width.toNat idx)) := by
  rw [← busy_iff, abandonedImg]
  cases s.busy with
  | false => simp
  | true =>
    cases decode s.latched with
    | error e => simp
    | ok c => cases c <;> simp [mem_entriesAddrs]

theorem mem_abandonedMsg {s : State} {j : Nat} : j ∈ abandonedMsg s ↔
    s.phase ≠ .idle ∧ decode s.latched = .ok .decode ∧ decodeCheck s = .noError ∧ j < ceil8 s.decBits.toNat := by
  rw [← busy_iff, abandonedMsg]
  cases s.busy with
  | false => simp
  | true =>
    cases decode s.latched with
    | error e => simp
    | ok c => cases c <;> simp

theorem abandoned_of_idle {s : State} (h : s.phase = .idle) : abandonedImg s = [] ∧ abandonedMsg s = [] := by
  have hbusy := (not_busy_iff s).2 h
  simp [abandonedImg, abandonedMsg, hbusy]

/-- Settles O56: `abandonedImg` and `abandonedMsg` list the bytes that the running command could have written. -/
theorem resetAbandonsTheRunningCommand : Obligations.ResetAbandonsTheRunningCommand := by
  refine fun s => ⟨rfl, rfl, rfl, fun a => ?_, fun j => ?_⟩
  · exact ⟨fun h => read_writeAll_freeBytes_of_notMem (mem_abandonedImg.not.mpr h),
      fun h => read_writeAll_freeBytes_isSome (mem_abandonedImg.mpr h)⟩
  · exact ⟨fun h => read_writeAll_freeBytes_of_notMem (mem_abandonedMsg.not.mpr h),
      fun h => read_writeAll_freeBytes_isSome (mem_abandonedMsg.mpr h)⟩

/-- Settles O57: an idle engine abandons no byte, and the turns test `rst_n` first. -/
theorem nothingMovesInReset : Obligations.NothingMovesInReset := by
  refine fun s => ⟨fun hidle => ?_, fun hrst => ⟨by simp [takeTurn, hrst], by simp [takeTurn, hrst]⟩,
    _, _, rfl, rfl, rfl, rfl, rfl⟩
  obtain ⟨himg, hmsg⟩ := abandoned_of_idle hidle
  simp [assertReset, himg, hmsg, freeBytes, Memory.writeAll]

theorem abandonedImg_lt {s : State} : ∀ a ∈ abandonedImg s, a < s.params.imgBytes := by
  intro a ha
  obtain ⟨-, ⟨-, hk, i, hi, ha⟩ | ⟨idx, -, hk, ha⟩⟩ := mem_abandonedImg.mp ha <;> obtain ⟨k, rfl⟩ := mem_entryAddrs.mp ha
  · obtain ⟨hgeo, hcap⟩ := encodeCheck_ok hk
    exact sampleAddr_lt_imgBytes hgeo (by omega) k.isLt
  · obtain ⟨hgeo, hcap⟩ := tileCheck_ok hk
    exact sampleAddr_lt_imgBytes hgeo hcap k.isLt

theorem abandonedMsg_lt {s : State} (hp : s.params.valid) : ∀ j ∈ abandonedMsg s, j < s.params.msgBytes := by
  intro j hj
  obtain ⟨-, -, hk, hj⟩ := mem_abandonedMsg.mp hj
  obtain ⟨hgeo, hcap⟩ := decodeCheck_ok hk
  have hbit : 8 * j < s.capacity := by rw [ceil8] at hj; omega
  simpa using messageByte_lt hp hgeo hbit

theorem freeBytes_lt {l : List Nat} {size : Nat} (c : Nat) (h : ∀ a ∈ l, a < size) : ∀ x ∈ freeBytes c l, x.1 < size :=
  fun x hx => h x.1 (freeBytes_addrs c l ▸ List.mem_map_of_mem hx)

theorem Status.reset_ok : Status.reset.err = true ↔ Status.reset.errCode ≠ .noError := by decide

theorem assertReset_inv {s : State} (hs : s.Inv) : (assertReset s).Inv := by
  obtain ⟨hp, ⟨himg, himg', hmsg, hmsg'⟩, -⟩ := hs
  refine inv_of_idle hp ⟨?_, ?_, ?_, ?_⟩ Status.reset_ok rfl fun _ => rfl
  · exact Memory.wf_writeAll _ himg
  · exact Memory.within_writeAll (freeBytes_lt _ abandonedImg_lt) himg'
  · exact Memory.wf_writeAll _ hmsg
  · exact Memory.within_writeAll (freeBytes_lt _ (abandonedMsg_lt hp)) hmsg'

theorem releaseReset_inv {s : State} (hs : s.Inv) : (releaseReset s).Inv := by
  obtain ⟨hp, hm, hst, hw, hl, -⟩ := hs
  exact ⟨hp, hm, hst, hw, hl, resetOk_of_rstN rfl⟩

/-! ### The invariant -/

/-- Settles O58: the phase is IDLE, the memories are empty, and the default parameters meet their constraints. -/
theorem resetSatisfiesTheInvariant : Obligations.ResetSatisfiesTheInvariant :=
  inv_of_idle (by decide) ⟨.nil, nofun, .nil, nofun⟩ Status.reset_ok rfl (resetOk_of_rstN rfl)

theorem takeTurn_inv {turn : Turn} {s t : State} (hs : s.Inv) (h : takeTurn turn s = .next t) : t.Inv := by
  cases turn with
  | engine =>
    simp only [takeTurn] at h
    split at h
    · exact engineStep_inv ‹_› hs h
    · cases h; exact hs
  | host =>
    simp only [takeTurn] at h
    split at h
    · exact hostStep_inv ‹_› hs h
    · cases h; exact hs
  | resetLow => cases h; exact assertReset_inv hs
  | resetHigh => cases h; exact releaseReset_inv hs

theorem inv_schedule {s : State} (hs : s.Inv) (turns : List Turn) : State.Inv { s with schedule := turns } := by
  obtain ⟨hp, hm, hst, hw, hl, hr⟩ := hs
  exact ⟨hp, hm, hst, hw, hl, fun hrst => congrArg (fun u : State => { u with schedule := turns }) (hr hrst)⟩

/-- Settles O59: each of the four turns keeps the invariant. -/
theorem everyStepKeepsTheInvariant : Obligations.EveryStepKeepsTheInvariant := by
  intro s t hs h
  unfold step interleave at h
  split at h
  · exact takeTurn_inv hs h
  · exact takeTurn_inv (inv_schedule hs _) h

/-! ### The faults of the engine (20_memory.md R84) -/

/-- The command `c`, in state `s`, reads the image bytes of entry `idx` (43_tiler.md R129; 45_codec.md R149, R155). -/
def ReadsEntry (c : Instr) (s : State) (idx : Nat) : Prop :=
  (c = .tileLoad idx ∧ tileCheck idx s = .noError) ∨ ((c = .encode ∨ c = .decode) ∧ s.phase = .loop ∧ idx = s.i)

theorem ReadsEntry.inRange {c : Instr} {s : State} {idx : Nat} (hs : s.loopOk) (h : ReadsEntry c s idx) :
    s.geometryOk ∧ idx < s.capacity := by
  rcases h with ⟨-, hk⟩ | ⟨-, hloop, rfl⟩
  · exact tileCheck_ok hk
  · exact loop_inRange hs hloop

/-- The outcomes of a command step: a next state, or the fault of a byte that the command reads and nothing has written. -/
inductive StepOutcome (c : Instr) (s : State) : Host.Outcome State Fault Refusal → Prop
  | next (t : State) : StepOutcome c s (.next t)
  | image {idx : Nat} (hreads : ReadsEntry c s idx) (k : Fin 64)
      (hnone : s.img.read (sampleAddr s.width.toNat idx k.val) = none) :
      StepOutcome c s (.fault (.unwrittenByte .img (sampleAddr s.width.toNat idx k.val)))
  | message (hc : c = .encode) (hloop : s.phase = .loop) (hnone : s.msg.read (s.i / 8) = none) :
      StepOutcome c s (.fault (.unwrittenByte .msg (s.i / 8)))

theorem tileLoadBody_outcome {c : Instr} {idx : Nat} {s : State} (hreads : ReadsEntry c s idx) (k : State → State) :
    StepOutcome c s (endWith (tileLoadBody idx s) k) := by
  cases hb : tileLoadBody idx s with
  | ok u => exact .next _
  | error f =>
    obtain ⟨j, rfl, hnone⟩ := tileLoadBody_error hb
    exact .image hreads j hnone

theorem execTileLoad_outcome (idx : Nat) (s : State) : StepOutcome (.tileLoad idx) s (execTileLoad idx s) := by
  unfold execTileLoad
  split
  · exact tileLoadBody_outcome (.inl ⟨rfl, ‹_›⟩) _
  · exact .next _

theorem execTileStore_outcome (idx : Nat) (s : State) : StepOutcome (.tileStore idx) s (execTileStore idx s) := by
  unfold execTileStore
  split <;> exact .next _

theorem encodeStart_outcome (s : State) : StepOutcome .encode s (encodeStart s) := by
  unfold encodeStart
  split <;> exact .next _

theorem decodeStart_outcome (s : State) : StepOutcome .decode s (decodeStart s) := by
  unfold decodeStart
  split <;> exact .next _

theorem encodeEntry_error {s : State} {f : Fault} (h : encodeEntry s = .error f) :
    payloadBit s.msg s.i = .error f ∨ tileLoadBody s.i s = .error f := by
  unfold encodeEntry at h
  split at h
  · cases h; exact .inl ‹_›
  · split at h
    · cases h; exact .inr ‹_›
    · cases h

theorem decodeEntry_error {s : State} {f : Fault} (h : decodeEntry s = .error f) : tileLoadBody s.i s = .error f := by
  unfold decodeEntry at h
  split at h
  · cases h; exact ‹_›
  · cases h

theorem execEncode_outcome (s : State) : StepOutcome .encode s (execEncode s) := by
  unfold execEncode
  split
  · cases hb : encodeEntry s with
    | ok u => exact .next _
    | error f =>
      rcases encodeEntry_error hb with h | h
      · obtain ⟨rfl, hnone⟩ := payloadBit_error h
        exact .message rfl ‹_› hnone
      · obtain ⟨k, rfl, hnone⟩ := tileLoadBody_error h
        exact .image (.inr ⟨.inl rfl, ‹_›, rfl⟩) k hnone
  · exact encodeStart_outcome s
  · exact encodeStart_outcome s

theorem execDecode_outcome (s : State) : StepOutcome .decode s (execDecode s) := by
  unfold execDecode
  split
  · cases hb : decodeEntry s with
    | ok u => exact .next _
    | error f =>
      obtain ⟨k, rfl, hnone⟩ := tileLoadBody_error (decodeEntry_error hb)
      exact .image (.inr ⟨.inr rfl, ‹_›, rfl⟩) k hnone
  · exact decodeStart_outcome s
  · exact decodeStart_outcome s

theorem exec_outcome (c : Instr) (s : State) : StepOutcome c s (exec c s) := by
  cases c with
  | encode => exact execEncode_outcome s
  | decode => exact execDecode_outcome s
  | tileLoad idx => exact execTileLoad_outcome idx s
  | tileStore idx => exact execTileStore_outcome idx s
  | nop | fdct | idct | quant | dequant | embed b | extract => exact .next _

/-- Settles O60: under the invariant the entry that a command reads, and its message byte, are in range. -/
theorem theEngineFaultsOnlyOnUnwrittenBytes : Obligations.TheEngineFaultsOnlyOnUnwrittenBytes := by
  intro s hs
  obtain ⟨hp, -, -, -, hl, -⟩ := hs
  cases hbusy : s.busy with
  | false => exact .inl ⟨s, by simp [engineStep, hbusy]⟩
  | true =>
    cases hw : decode s.latched with
    | error e => exact .inl ⟨_, engineStep_of_illegal hbusy hw⟩
    | ok c =>
      rw [engineStep_of_legal hbusy hw]
      have hout := exec_outcome c s
      generalize exec c s = o at hout ⊢
      cases hout with
      | next t => exact .inl ⟨t, rfl⟩
      | image hreads k hnone =>
        obtain ⟨hgeo, hcap⟩ := hreads.inRange hl
        exact .inr (.inl ⟨_, rfl, hnone, sampleAddr_lt_image hgeo hcap k.isLt, sampleAddr_lt_imgBytes hgeo hcap k.isLt⟩)
      | message _ hloop hnone =>
        obtain ⟨hgeo, hcap⟩ := loop_inRange hl hloop
        exact .inr (.inr ⟨_, rfl, hnone, messageByte_lt hp hgeo hcap⟩)

end Sys2Proof.Machine
end

section
/-! The bus (20_memory.md; 10_state.md section 3): what an access to each region answers and stores, which accesses are
refused, and the turns of the host. The rules about one region come first; each statement collects the rules it needs. -/

namespace Sys2Proof.Machine

/-! ### The address map (20_memory.md R57) -/

theorem regionOf_register (p : Params) {i b : Nat} (hi : i < 14) (hb : b < 4) : regionOf p (4 * i + b) = csrAt i := by
  have hidx : (4 * i + b) / 4 = i := by omega
  rw [regionOf, if_pos (by omega), hidx]

theorem regionOf_blk (p : Params) (k : Fin 64) {b : Nat} (hb : b < 4) : regionOf p (0x1000 + 4 * k + b) = .blk k := by
  have hk : (0x1000 + 4 * k.val + b - 0x1000) / 4 = k.val := by omega
  rw [regionOf, if_neg (by omega), dif_pos (by omega)]
  simp only [hk]

theorem regionOf_coef (p : Params) (k : Fin 64) {b : Nat} (hb : b < 4) : regionOf p (0x1100 + 4 * k + b) = .coef k := by
  have hk : (0x1100 + 4 * k.val + b - 0x1100) / 4 = k.val := by omega
  rw [regionOf, if_neg (by omega), dif_neg (by omega), dif_pos (by omega)]
  simp only [hk]

theorem regionOf_qblk (p : Params) (k : Fin 64) {b : Nat} (hb : b < 4) : regionOf p (0x1200 + 4 * k + b) = .qblk k := by
  have hk : (0x1200 + 4 * k.val + b - 0x1200) / 4 = k.val := by omega
  rw [regionOf, if_neg (by omega), dif_neg (by omega), dif_neg (by omega), dif_pos (by omega)]
  simp only [hk]

theorem regionOf_qtab (p : Params) (k : Fin 64) {b : Nat} (hb : b < 4) : regionOf p (0x1300 + 4 * k + b) = .qtab k := by
  have hk : (0x1300 + 4 * k.val + b - 0x1300) / 4 = k.val := by omega
  rw [regionOf, if_neg (by omega), dif_neg (by omega), dif_neg (by omega), dif_neg (by omega), dif_pos (by omega)]
  simp only [hk]

/-- Beyond the word registers only the two memories are left. -/
theorem regionOf_of_le (p : Params) {off : Nat} (h : 0x1400 ≤ off) : regionOf p off =
    if 0x10000 ≤ off ∧ off < 0x10000 + p.msgBytes then .msg (off - 0x10000)
    else if 0x1000000 ≤ off ∧ off < 0x1000000 + p.imgBytes then .img (off - 0x1000000)
    else .reserved := by
  rw [regionOf, if_neg (by omega), dif_neg (by omega), dif_neg (by omega), dif_neg (by omega), dif_neg (by omega)]

theorem regionOf_msgByte {p : Params} {j : Nat} (hj : j < p.msgBytes) : regionOf p (0x10000 + j) = .msg j := by
  rw [regionOf_of_le p (by omega), if_pos (by omega), Nat.add_sub_cancel_left]

theorem regionOf_imgByte {p : Params} {a : Nat} (hp : p.valid) (ha : a < p.imgBytes) : regionOf p (0x1000000 + a) = .img a := by
  obtain ⟨-, ⟨-, hmsg, -⟩, -⟩ := hp
  rw [regionOf_of_le p (by omega), if_neg (by omega), if_pos (by omega), Nat.add_sub_cancel_left]

theorem csrAt_of_ge {i : Nat} (h : 14 ≤ i) : csrAt i = .reserved := by
  obtain ⟨j, rfl⟩ := Nat.exists_eq_add_of_le' h
  rfl

theorem regionOf_reservedRegister (p : Params) {off : Nat} (hlo : 0x38 ≤ off) (hhi : off < 0x1000) :
    regionOf p off = .reserved := by
  rw [regionOf, if_pos hhi, csrAt_of_ge (by omega)]

theorem regionOf_reserved {p : Params} {off : Nat} (hp : p.valid)
    (h : (0x038 ≤ off ∧ off < 0x1000) ∨ (0x1400 ≤ off ∧ off < 0x10000) ∨ (0x10000 + p.msgBytes ≤ off ∧ off < 0x1000000) ∨
      0x1000000 + p.imgBytes ≤ off) : regionOf p off = .reserved := by
  obtain ⟨-, ⟨-, hmsg, -⟩, -⟩ := hp
  rcases h with ⟨hlo, hhi⟩ | h
  · exact regionOf_reservedRegister p hlo hhi
  · rw [regionOf_of_le p (by omega), if_neg (by omega), if_neg (by omega)]

/-- CMD is the word at offset 8. -/
theorem eq_cmdOffset {p : Params} {off : Nat} (hr : regionOf p off = .csr .cmd) (h4 : off % 4 = 0) : off = 8 := by
  have hlt : off < 0x1000 := by
    by_contra hge
    rw [regionOf, if_neg hge] at hr
    split_ifs at hr
  rw [regionOf, if_pos hlt] at hr
  have hidx : off / 4 = 2 := by
    unfold csrAt at hr
    split at hr <;> simp_all
  omega

/-! ### Legal shapes (20_memory.md R58, R59) -/

theorem bytes_eq_some_iff {x : Transaction} {n : Nat} : x.bytes = some n ↔
    (x.size = 0#2 ∧ n = 1) ∨ (x.size = 1#2 ∧ n = 2) ∨ (x.size = 2#2 ∧ n = 4) := by
  unfold Transaction.bytes
  split_ifs with h0 h1 h2 <;> simp [*, eq_comm]

theorem legalShape_iff {r : Region} {x : Transaction} : legalShape r x = true ↔ ∃ n, x.bytes = some n ∧ x.addr.toNat % n = 0 ∧
    r ≠ .reserved ∧ (n = 4 ∨ (∃ a, r = .msg a) ∨ ∃ a, r = .img a) := by
  unfold legalShape
  cases x.bytes with
  | none => simp
  | some n => cases r <;> simp

theorem legalShape_word {r : Region} {x : Transaction} (hr : r ≠ .reserved) (hsize : x.size = 2#2)
    (halign : x.addr.toNat % 4 = 0) : legalShape r x = true :=
  legalShape_iff.mpr ⟨4, bytes_eq_some_iff.mpr (.inr (.inr ⟨hsize, rfl⟩)), halign, hr, .inl rfl⟩

/-! ### One access to each region (20_memory.md R66) -/

theorem hostAccess_of_write {x : Transaction} {s : State} (hw : x.write = true) :
    hostAccess x s = .next { (busWrite x s).1 with lastResponse := some (.write (busWrite x s).2) } := by
  simp [hostAccess, hw]

theorem hostAccess_write_eq {x : Transaction} {s t : State} {r : Resp} (hw : x.write = true) (h : busWrite x s = (t, r)) :
    hostAccess x s = .next { t with lastResponse := some (.write r) } := by
  rw [hostAccess_of_write hw, h]

theorem hostAccess_read_eq {x : Transaction} {s : State} {r : Resp} {d : Word} (hw : x.write = false)
    (h : busRead x s = .ok (r, d)) : hostAccess x s = .next { s with lastResponse := some (.read r d) } := by
  simp [hostAccess, hw, h]

theorem hostAccess_read_fault {x : Transaction} {s : State} {f : Fault} (hw : x.write = false) (h : busRead x s = .error f) :
    hostAccess x s = .fault f := by
  simp [hostAccess, hw, h]

/-- An access of an illegal shape is refused (20_memory.md R58, R59, R61). -/
theorem hostAccess_of_illegalShape {x : Transaction} {s : State} (hl : ¬legalShape (regionOf s.params x.addr.toNat) x = true) :
    hostAccess x s = .next (s.refusedAccess x) := by
  cases hw : x.write with
  | true => simpa [State.refusedAccess, hw] using hostAccess_write_eq hw (if_neg hl : busWrite x s = (s, .error))
  | false => simpa [State.refusedAccess, hw] using hostAccess_read_eq hw (if_neg hl : busRead x s = .ok (.error, 0#32))

section
variable {x : Transaction} {s : State} (hl : legalShape (regionOf s.params x.addr.toNat) x = true)
include hl

theorem busRead_csr {c : Csr} (hr : regionOf s.params x.addr.toNat = .csr c) : busRead x s = .ok (.okay, csrRead c s) := by
  simp only [busRead, hl, if_true]
  simp only [hr]

theorem busRead_qtab {k : Fin 64} (hr : regionOf s.params x.addr.toNat = .qtab k) :
    busRead x s = .ok (.okay, (s.params.qtab[k]).setWidth 32) := by
  simp only [busRead, hl, if_true]
  simp only [hr]

theorem busRead_buffer_of_busy (hbusy : s.busy = true)
    (hr : (∃ k, regionOf s.params x.addr.toNat = .blk k ∨ regionOf s.params x.addr.toNat = .coef k ∨
        regionOf s.params x.addr.toNat = .qblk k) ∨
      (∃ a, regionOf s.params x.addr.toNat = .msg a ∨ regionOf s.params x.addr.toNat = .img a)) :
    busRead x s = .ok (.error, 0#32) := by
  simp only [busRead, hl, if_true]
  rcases hr with ⟨k, hr | hr | hr⟩ | ⟨a, hr | hr⟩ <;> simp [hr, hbusy]

theorem busWrite_buffer_of_busy (hbusy : s.busy = true)
    (hr : (∃ k, regionOf s.params x.addr.toNat = .blk k ∨ regionOf s.params x.addr.toNat = .coef k ∨
        regionOf s.params x.addr.toNat = .qblk k) ∨
      (∃ a, regionOf s.params x.addr.toNat = .msg a ∨ regionOf s.params x.addr.toNat = .img a)) :
    busWrite x s = (s, .error) := by
  simp only [busWrite, hl, if_true]
  rcases hr with ⟨k, hr | hr | hr⟩ | ⟨a, hr | hr⟩ <;> simp only [hr, whileIdle_of_busy hbusy]

theorem busWrite_csr {c : Csr} (hr : regionOf s.params x.addr.toNat = .csr c) : busWrite x s = csrWrite c x.wdata s := by
  simp only [busWrite, hl, if_true]
  simp only [hr]

theorem busRead_blk (hidle : s.busy = false) {k : Fin 64} (hr : regionOf s.params x.addr.toNat = .blk k) :
    busRead x s = .ok (.okay, s.blk[k]) := by
  simp only [busRead, hl, if_true]
  simp [hr, hidle]

theorem busRead_coef (hidle : s.busy = false) {k : Fin 64} (hr : regionOf s.params x.addr.toNat = .coef k) :
    busRead x s = .ok (.okay, s.coef[k]) := by
  simp only [busRead, hl, if_true]
  simp [hr, hidle]

theorem busRead_qblk (hidle : s.busy = false) {k : Fin 64} (hr : regionOf s.params x.addr.toNat = .qblk k) :
    busRead x s = .ok (.okay, s.qblk[k]) := by
  simp only [busRead, hl, if_true]
  simp [hr, hidle]

theorem busWrite_blk (hidle : s.busy = false) {k : Fin 64} (hr : regionOf s.params x.addr.toNat = .blk k) :
    busWrite x s = ({ s with blk := s.blk.set k x.wdata }, .okay) := by
  simp only [busWrite, hl, if_true]
  simp only [hr, whileIdle_of_idle hidle]

theorem busWrite_coef (hidle : s.busy = false) {k : Fin 64} (hr : regionOf s.params x.addr.toNat = .coef k) :
    busWrite x s = ({ s with coef := s.coef.set k x.wdata }, .okay) := by
  simp only [busWrite, hl, if_true]
  simp only [hr, whileIdle_of_idle hidle]

theorem busWrite_qblk (hidle : s.busy = false) {k : Fin 64} (hr : regionOf s.params x.addr.toNat = .qblk k) :
    busWrite x s = ({ s with qblk := s.qblk.set k x.wdata }, .okay) := by
  simp only [busWrite, hl, if_true]
  simp only [hr, whileIdle_of_idle hidle]

variable (hidle : s.busy = false) {n a : Nat} (hn : x.bytes = some n)
include hidle hn

theorem busWrite_msg (hr : regionOf s.params x.addr.toNat = .msg a) :
    busWrite x s = ({ s with msg := s.msg.writeAll (bytesOfWord a n x.wdata) }, .okay) := by
  simp only [busWrite, hl, if_true]
  simp only [hr, whileIdle_of_idle hidle, hn, Option.getD_some]

theorem busWrite_img (hr : regionOf s.params x.addr.toNat = .img a) :
    busWrite x s = ({ s with img := s.img.writeAll (bytesOfWord a n x.wdata) }, .okay) := by
  simp only [busWrite, hl, if_true]
  simp only [hr, whileIdle_of_idle hidle, hn, Option.getD_some]

theorem busRead_msg {d : Word} (hr : regionOf s.params x.addr.toNat = .msg a) (hd : memoryRead .msg s.msg a n = .ok d) :
    busRead x s = .ok (.okay, d) := by
  simp only [busRead, hl, if_true]
  simp [hr, hidle, hn, hd]

theorem busRead_img {d : Word} (hr : regionOf s.params x.addr.toNat = .img a) (hd : memoryRead .img s.img a n = .ok d) :
    busRead x s = .ok (.okay, d) := by
  simp only [busRead, hl, if_true]
  simp [hr, hidle, hn, hd]

theorem busRead_msg_fault {f : Fault} (hr : regionOf s.params x.addr.toNat = .msg a)
    (hf : memoryRead .msg s.msg a n = .error f) : busRead x s = .error f := by
  simp only [busRead, hl, if_true]
  simp [hr, hidle, hn, hf]

theorem busRead_img_fault {f : Fault} (hr : regionOf s.params x.addr.toNat = .img a)
    (hf : memoryRead .img s.img a n = .error f) : busRead x s = .error f := by
  simp only [busRead, hl, if_true]
  simp [hr, hidle, hn, hf]

end

/-! ### The bytes of an access (20_memory.md R60, R84) -/

theorem mem_accessAddrs {a n b : Nat} : b ∈ accessAddrs a n ↔ ∃ j < n, b = a + j := by
  simp [accessAddrs, eq_comm]

/-- The word that a read of `n` written bytes returns. -/
abbrev readWord (m : Memory) (a n : Nat) : Word := BitVec.ofNat 32 (wordOfBytes m (accessAddrs a n))

theorem memoryRead_of_written {name : MemName} {m : Memory} {a n : Nat} (h : ∀ j < n, (m.read (a + j)).isSome = true) :
    memoryRead name m a n = .ok (readWord m a n) := by
  have hnone : m.firstUnwritten (accessAddrs a n) = none := by
    rw [Memory.firstUnwritten_eq_none_iff]
    intro b hb
    obtain ⟨j, hj, rfl⟩ := mem_accessAddrs.mp hb
    exact h j hj
  simp only [memoryRead, hnone]

theorem memoryRead_of_unwritten {name : MemName} {m : Memory} {a n : Nat} (h : ∃ j < n, m.read (a + j) = none) :
    ∃ b, memoryRead name m a n = .error (.unwrittenByte name b) ∧ m.read b = none := by
  obtain ⟨j, hj, hnone⟩ := h
  cases hf : m.firstUnwritten (accessAddrs a n) with
  | some b => exact ⟨b, by simp only [memoryRead, hf], (Memory.of_firstUnwritten hf).2⟩
  | none =>
    have := (Memory.firstUnwritten_eq_none_iff _ _).mp hf (a + j) (mem_accessAddrs.mpr ⟨j, hj, rfl⟩)
    simp [hnone] at this

theorem read_writeAll_bytesOfWord (m : Memory) {a n j : Nat} (v : Word) (hj : j < n) :
    (m.writeAll (bytesOfWord a n v)).read (a + j) = some (v.extractLsb' (8 * j) 8) := by
  refine Memory.read_writeAll_of_mem m ?_ (mem_bytesOfWord.mpr ⟨j, hj, rfl⟩)
  rw [bytesOfWord, List.pairwise_map]
  exact List.nodup_range.imp fun hne => by simpa using hne

theorem read_writeAll_bytesOfWord_of_outside (m : Memory) {a n b : Nat} (v : Word) (h : b < a ∨ a + n ≤ b) :
    (m.writeAll (bytesOfWord a n v)).read b = m.read b := by
  refine Memory.read_writeAll_of_notMem m fun x hx hb => ?_
  obtain ⟨j, hj, rfl⟩ := mem_bytesOfWord.mp hx
  simp only at hb
  omega

theorem wordOfBytes_lt (m : Memory) (l : List Nat) : wordOfBytes m l < 256 ^ l.length := by
  induction l with
  | nil => exact Nat.one_pos
  | cons a l ih =>
    have := ((m.read a).getD 0#8).isLt
    rw [wordOfBytes, List.length_cons, Nat.pow_succ]
    omega

/-- Byte `j` of the word is the byte at the `j`-th address, 0 beyond the last. -/
theorem wordOfBytes_byte (m : Memory) (l : List Nat) (j : Nat) :
    wordOfBytes m l / 256 ^ j % 256 = ((l[j]?.bind m.read).getD 0#8).toNat := by
  induction l generalizing j with
  | nil => simp [wordOfBytes]
  | cons a l ih =>
    have := ((m.read a).getD 0#8).isLt
    cases j with
    | zero => simp only [wordOfBytes, Nat.pow_zero, Nat.div_one]; simp; omega
    | succ j =>
      have hshift : wordOfBytes m (a :: l) / 256 = wordOfBytes m l := by rw [wordOfBytes]; omega
      rw [Nat.pow_succ', ← Nat.div_div_eq_div_mul, hshift, ih]
      simp

theorem extractLsb'_readWord (m : Memory) {a n j : Nat} (hn : n ≤ 4) :
    ((readWord m a n).extractLsb' (8 * j) 8).toNat = (((accessAddrs a n)[j]?.bind m.read).getD 0#8).toNat := by
  have hlt : wordOfBytes m (accessAddrs a n) < 2 ^ 32 := by
    refine Nat.lt_of_lt_of_le (wordOfBytes_lt ..) ?_
    simpa [accessAddrs] using Nat.pow_le_pow_right (n := 256) (by decide) hn
  rw [← wordOfBytes_byte, BitVec.extractLsb'_toNat, BitVec.toNat_ofNat, Nat.mod_eq_of_lt hlt, Nat.shiftRight_eq_div_pow,
    Nat.pow_mul]

/-- A read is little-endian: byte `j` of the word is the `j`-th byte, and the high bytes are 0. -/
theorem readWord_byte (m : Memory) {a n : Nat} (hn : n ≤ 4) (h : ∀ j < n, (m.read (a + j)).isSome = true) (j : Nat) :
    some ((readWord m a n).extractLsb' (8 * j) 8) = if j < n then m.read (a + j) else some 0#8 := by
  have hbyte := extractLsb'_readWord m (a := a) (j := j) hn
  by_cases hj : j < n
  · obtain ⟨v, hv⟩ := Option.isSome_iff_exists.mp (h j hj)
    rw [if_pos hj, hv]
    refine congrArg some (BitVec.eq_of_toNat_eq (hbyte.trans ?_))
    simp [accessAddrs, hj, hv]
  · rw [if_neg hj]
    refine congrArg some (BitVec.eq_of_toNat_eq (hbyte.trans ?_))
    simp [accessAddrs, hj]

/-- Settles O24: a write stores `bytesOfWord`, which `readWord` reads back. -/
theorem memoryAccessesAreLittleEndian : Obligations.MemoryAccessesAreLittleEndian := by
  intro s x a n hidle hn hl
  have hn4 : n ≤ 4 := by rcases bytes_cases hn with rfl | rfl | rfl <;> decide
  refine ⟨fun hr => ⟨fun hw => ?_, fun hw hwritten => ?_⟩, fun hr => ⟨fun hw => ?_, fun hw hwritten => ?_⟩⟩
  · exact ⟨_, hostAccess_write_eq hw (busWrite_img hl hidle hn hr), rfl, fun j hj => read_writeAll_bytesOfWord _ _ hj,
      fun b hb => read_writeAll_bytesOfWord_of_outside _ _ hb⟩
  · exact ⟨_, hostAccess_read_eq hw (busRead_img hl hidle hn hr (memoryRead_of_written hwritten)),
      fun j _ => readWord_byte _ hn4 hwritten j⟩
  · exact ⟨_, hostAccess_write_eq hw (busWrite_msg hl hidle hn hr), rfl, fun j hj => read_writeAll_bytesOfWord _ _ hj,
      fun b hb => read_writeAll_bytesOfWord_of_outside _ _ hb⟩
  · exact ⟨_, hostAccess_read_eq hw (busRead_msg hl hidle hn hr (memoryRead_of_written hwritten)),
      fun j _ => readWord_byte _ hn4 hwritten j⟩

/-! ### Unwritten bytes (20_memory.md R84) -/

theorem hostAccess_img_of_unwritten {x : Transaction} {s : State} {a n : Nat} (hidle : s.busy = false) (hw : x.write = false)
    (hn : x.bytes = some n) (hl : legalShape (regionOf s.params x.addr.toNat) x = true)
    (hr : regionOf s.params x.addr.toNat = .img a) (h : ∃ j < n, s.img.read (a + j) = none) :
    ∃ b, hostAccess x s = .fault (.unwrittenByte .img b) ∧ s.img.read b = none := by
  obtain ⟨b, hb, hnone⟩ := memoryRead_of_unwritten (name := .img) h
  exact ⟨b, hostAccess_read_fault hw (busRead_img_fault hl hidle hn hr hb), hnone⟩

theorem hostAccess_msg_of_unwritten {x : Transaction} {s : State} {a n : Nat} (hidle : s.busy = false) (hw : x.write = false)
    (hn : x.bytes = some n) (hl : legalShape (regionOf s.params x.addr.toNat) x = true)
    (hr : regionOf s.params x.addr.toNat = .msg a) (h : ∃ j < n, s.msg.read (a + j) = none) :
    ∃ b, hostAccess x s = .fault (.unwrittenByte .msg b) ∧ s.msg.read b = none := by
  obtain ⟨b, hb, hnone⟩ := memoryRead_of_unwritten (name := .msg) h
  exact ⟨b, hostAccess_read_fault hw (busRead_msg_fault hl hidle hn hr hb), hnone⟩

/-- A command that cannot go on, with its message byte written if it reads one, faults on a byte of IMG. -/
theorem exec_image_fault {c : Instr} {s : State} (hnext : ∀ t, exec c s ≠ .next t)
    (hmsg : c = .encode → (s.msg.read (s.i / 8)).isSome = true) :
    ∃ b, exec c s = .fault (.unwrittenByte .img b) ∧ s.img.read b = none := by
  have hout := exec_outcome c s
  generalize exec c s = o at hnext hout ⊢
  cases hout with
  | next t => exact absurd rfl (hnext t)
  | image _ k hnone => exact ⟨_, rfl, hnone⟩
  | message hc _ hnone => exact absurd (hmsg hc) (by simp [hnone])

theorem exec_tileLoad_of_unwritten {s : State} {idx : Nat} (hk : tileCheck idx s = .noError) (h : ¬s.entryWritten idx) :
    ∃ b, exec (.tileLoad idx) s = .fault (.unwrittenByte .img b) ∧ s.img.read b = none := by
  refine exec_image_fault (fun t ht => ?_) nofun
  rcases execTileLoad_cases ht with ⟨hk', -⟩ | ⟨-, hw, -⟩
  · exact hk' hk
  · exact h hw

theorem exec_encode_of_unwrittenMessage {s : State} (hloop : s.phase = .loop) (h : s.msg.read (s.i / 8) = none) :
    exec .encode s = .fault (.unwrittenByte .msg (s.i / 8)) := by
  simp [exec, execEncode, hloop, encodeEntry, payloadBit, h, endWith]

theorem exec_encode_of_unwrittenImage {s : State} (hloop : s.phase = .loop) (hmsg : (s.msg.read (s.i / 8)).isSome = true)
    (h : ¬s.entryWritten s.i) : ∃ b, exec .encode s = .fault (.unwrittenByte .img b) ∧ s.img.read b = none := by
  refine exec_image_fault (fun t ht => ?_) fun _ => hmsg
  rcases execEncode_steps ht with ⟨hp, -⟩ | ⟨hp, -⟩ | ⟨-, -, -, hw, -⟩
  · exact hp hloop
  · exact hp hloop
  · exact h hw

theorem exec_decode_of_unwrittenImage {s : State} (hloop : s.phase = .loop) (h : ¬s.entryWritten s.i) :
    ∃ b, exec .decode s = .fault (.unwrittenByte .img b) ∧ s.img.read b = none := by
  refine exec_image_fault (fun t ht => ?_) nofun
  rcases execDecode_steps ht with ⟨hp, -⟩ | ⟨hp, -⟩ | ⟨-, hw, -⟩
  · exact hp hloop
  · exact hp hloop
  · exact h hw

/-- Settles O25: the host's reads, TILE_LOAD, ENCODE with its message byte first, and DECODE. -/
theorem unwrittenBytesFault : Obligations.UnwrittenBytesFault :=
  ⟨fun _ _ _ _ hidle hw hn hl =>
      ⟨hostAccess_img_of_unwritten hidle hw hn hl, hostAccess_msg_of_unwritten hidle hw hn hl⟩,
    fun _ _ => exec_tileLoad_of_unwritten, fun _ => exec_encode_of_unwrittenMessage, fun _ => exec_encode_of_unwrittenImage,
    fun _ => exec_decode_of_unwrittenImage, fun _ => ⟨rfl, rfl⟩⟩

/-! ### Refused accesses (20_memory.md R57 to R61) -/

/-- The conditions of the spec under which an access is refused for its size, its alignment or its offset. -/
theorem not_legalShape_of_illegal {p : Params} {x : Transaction}
    (h : x.size = 3#2 ∨ (x.size = 1#2 ∧ x.addr.toNat % 2 ≠ 0) ∨ (x.size = 2#2 ∧ x.addr.toNat % 4 ≠ 0) ∨
     (x.size ≠ 2#2 ∧ ∀ a, regionOf p x.addr.toNat ≠ .msg a ∧ regionOf p x.addr.toNat ≠ .img a) ∨
     (0x038 ≤ x.addr.toNat ∧ x.addr.toNat < 0x1000) ∨ regionOf p x.addr.toNat = .reserved) :
    ¬legalShape (regionOf p x.addr.toNat) x = true := by
  intro hl
  obtain ⟨n, hn, halign, hr, hshape⟩ := legalShape_iff.mp hl
  have hsize := bytes_eq_some_iff.mp hn
  rcases h with h | ⟨h, hodd⟩ | ⟨h, hodd⟩ | ⟨h, hword⟩ | ⟨hlo, hhi⟩ | h
  · simp [h] at hsize
  · obtain rfl : n = 2 := by simpa [h] using hsize
    exact hodd halign
  · obtain rfl : n = 4 := by simpa [h] using hsize
    exact hodd halign
  · rcases hshape with rfl | ⟨a, ha⟩ | ⟨a, ha⟩
    · simp [h] at hsize
    · exact (hword a).1 ha
    · exact (hword a).2 ha
  · exact hr (regionOf_reservedRegister p hlo hhi)
  · exact hr h

theorem legalShape_memory {r : Region} {x : Transaction} {a : Nat} (hr : r = .msg a ∨ r = .img a)
    (h : x.size = 0#2 ∨ (x.size = 1#2 ∧ x.addr.toNat % 2 = 0) ∨ (x.size = 2#2 ∧ x.addr.toNat % 4 = 0)) :
    legalShape r x = true := by
  have hmem : r ≠ .reserved ∧ ∀ n, n = 4 ∨ (∃ a, r = .msg a) ∨ ∃ a, r = .img a := by
    rcases hr with rfl | rfl <;> simp
  obtain ⟨n, hn, halign⟩ : ∃ n, x.bytes = some n ∧ x.addr.toNat % n = 0 := by
    rcases h with h | ⟨h, halign⟩ | ⟨h, halign⟩
    · exact ⟨1, by simp [Transaction.bytes, h], Nat.mod_one _⟩
    · exact ⟨2, by simp [Transaction.bytes, h], halign⟩
    · exact ⟨4, by simp [Transaction.bytes, h], halign⟩
  exact legalShape_iff.mpr ⟨n, hn, halign, hmem.1, hmem.2 n⟩

/-- Settles O23: the shapes that `legalShape` refuses, the accesses that it admits, and the address map. -/
theorem illegalSizesAndOffsetsGetError : Obligations.IllegalSizesAndOffsetsGetError := by
  refine ⟨fun s x h => hostAccess_of_illegalShape (not_legalShape_of_illegal h), fun s x a => legalShape_memory,
    fun s x hsize halign hr => legalShape_word hr hsize halign,
    fun s x a n hp hn hl => ⟨fun hr => msgAccess_fits hp hr hl hn, fun hr => imgAccess_fits hp hr hl hn⟩,
    fun p hp => ⟨fun b hb => ?_, fun k b hb => ?_, fun j => regionOf_msgByte, fun a => regionOf_imgByte hp,
      fun off _ => regionOf_reserved hp⟩⟩
  · have register {i : Nat} (hi : i < 14) : regionOf p (4 * i + b) = csrAt i := regionOf_register p hi hb
    exact ⟨register (i := 0) (by decide), register (i := 1) (by decide), register (i := 2) (by decide),
      register (i := 3) (by decide), register (i := 4) (by decide), register (i := 5) (by decide),
      register (i := 6) (by decide), register (i := 7) (by decide), register (i := 8) (by decide),
      register (i := 9) (by decide), register (i := 10) (by decide), register (i := 11) (by decide),
      register (i := 12) (by decide), register (i := 13) (by decide)⟩
  · exact ⟨regionOf_blk p k hb, regionOf_coef p k hb, regionOf_qblk p k hb, regionOf_qtab p k hb⟩

/-! ### What a refused access changes (20_memory.md R61, R66) -/

theorem whileIdle_refused {s s' : State} (h : (whileIdle s s').2 = .error) : (whileIdle s s').1 = s := by
  rcases whileIdle_cases s s' with ⟨-, hw⟩ | ⟨-, hw⟩ <;> rw [hw] at h ⊢
  cases h

/-- A refused register write changes nothing, but that a CMD write while BUSY sets OVR (10_state.md R31). -/
theorem csrWrite_refused {c : Csr} {v : Word} {s : State} (h : (csrWrite c v s).2 = .error) :
    (csrWrite c v s).1 = s ∨ (c = .cmd ∧ s.busy = true ∧ (csrWrite c v s).1 = setOvr s) := by
  cases c with
  | id | capacity | progress | imgSize | msgSize => exact .inl rfl
  | width | height | encLen | decBits | clampCnt => exact .inl (whileIdle_refused h)
  | status | intStatus | intEnable => cases h
  | cmd =>
    cases hbusy : s.busy with
    | true => exact .inr ⟨rfl, rfl, by rw [csrWrite_cmd_of_busy hbusy]⟩
    | false => rw [csrWrite_cmd_of_idle hbusy] at h; cases h

theorem busWrite_refused {x : Transaction} {s : State} (h : (busWrite x s).2 = .error) :
    (busWrite x s).1 = s ∨
      (s.busy = true ∧ x.addr = 0x008#25 ∧ x.size = 2#2 ∧ (busWrite x s).1 = setOvr s) := by
  by_cases hl : legalShape (regionOf s.params x.addr.toNat) x = true
  · obtain ⟨n, hn, halign, -, hshape⟩ := legalShape_iff.mp hl
    simp only [busWrite, hl, if_true] at h ⊢
    cases hr : regionOf s.params x.addr.toNat with
    | csr c =>
      rw [hr] at h
      refine (csrWrite_refused h).imp_right fun ⟨hc, hbusy, hovr⟩ => ?_
      obtain rfl : n = 4 := by simpa [hr] using hshape
      exact ⟨hbusy, BitVec.eq_of_toNat_eq (eq_cmdOffset (hc ▸ hr) halign), by simpa using bytes_eq_some_iff.mp hn, hovr⟩
    | qtab k | reserved => exact .inl rfl
    | blk k | coef k | qblk k | msg j | img a =>
      rw [hr] at h
      exact .inl (whileIdle_refused h)
  · rw [busWrite, if_neg hl]
    exact .inl rfl

theorem buffer_refused {busy : Bool} {w d : Word} (h : (if busy = true then (Resp.error, 0#32) else (.okay, w)) = (.error, d)) :
    d = 0#32 := by
  cases busy <;> cases h
  rfl

theorem memory_refused {busy : Bool} {r : Except Fault Word} {d : Word}
    (h : (if busy = true then .ok (.error, 0#32)
      else match r with
        | .ok w => .ok (.okay, w)
        | .error f => .error f : Except Fault (Resp × Word)) = .ok (.error, d)) : d = 0#32 := by
  cases busy with
  | true => cases h; rfl
  | false => cases r <;> cases h

theorem busRead_refused {x : Transaction} {s : State} {d : Word} (h : busRead x s = .ok (.error, d)) : d = 0#32 := by
  by_cases hl : legalShape (regionOf s.params x.addr.toNat) x = true
  · simp only [busRead, hl, if_true] at h
    generalize regionOf s.params x.addr.toNat = r at h
    cases r with
    | csr c | qtab k => cases h
    | blk k | coef k | qblk k => exact buffer_refused (Except.ok.inj h)
    | msg j | img a => exact memory_refused h
    | reserved => cases h; rfl
  · rw [busRead, if_neg hl] at h
    cases h; rfl

/-- STATUS shows no more of a refused access than OVR. -/
theorem statusWord_of_refused {s t : State}
    (h : t = { s with lastResponse := t.lastResponse } ∨ t = { setOvr s with lastResponse := t.lastResponse }) :
    t.irq = s.irq ∧ statusWord t = statusWord { s with status := { s.status with ovr := t.status.ovr } } := by
  rcases h with h | h <;> rw [h] <;> exact ⟨rfl, rfl⟩

/-- Settles O22: a refused read returns 0; a refused write changes nothing, or is the CMD write that sets OVR. -/
theorem errorResponsesHaveNoEffect : Obligations.ErrorResponsesHaveNoEffect := by
  intro s t x h
  cases hw : x.write with
  | true =>
    rw [hostAccess_of_write hw] at h
    cases h
    have hwrite : (busWrite x s).2 = .error →
        (busWrite x s).1 = s ∨ (s.busy = true ∧ x.addr = 0x008#25 ∧ x.size = 2#2 ∧ (busWrite x s).1 = setOvr s) :=
      busWrite_refused
    refine ⟨nofun, fun hr => ?_, fun ⟨r, hr, herr⟩ => statusWord_of_refused ?_⟩
    · simp only [Option.some.injEq, Response.write.injEq] at hr
      rcases hwrite hr with hs | ⟨hbusy, haddr, hsize, hs⟩ <;> rw [hs, hr]
      · exact .inl rfl
      · exact .inr ⟨hbusy, haddr, hsize, rfl, rfl⟩
    · obtain rfl : r = .write .error := by
        rcases herr with rfl | ⟨d, rfl⟩
        · rfl
        · cases hr
      simp only [Option.some.injEq, Response.write.injEq] at hr
      rcases hwrite hr with hs | ⟨-, -, -, hs⟩ <;> rw [hs]
      · exact .inl rfl
      · exact .inr rfl
  | false =>
    cases hb : busRead x s with
    | error f => rw [hostAccess_read_fault hw hb] at h; cases h
    | ok answer =>
      obtain ⟨r, d⟩ := answer
      rw [hostAccess_read_eq hw hb] at h
      cases h
      refine ⟨fun d' hd => ?_, nofun, fun _ => statusWord_of_refused (.inl rfl)⟩
      simp only [Option.some.injEq, Response.read.injEq] at hd
      obtain ⟨rfl, rfl⟩ := hd
      obtain rfl := busRead_refused hb
      exact ⟨rfl, rfl⟩

/-! ### BUSY and idle (20_memory.md R66, R67) -/

theorem csrWrite_okay_of_idle {c : Csr} {s : State} (hidle : s.busy = false)
    (hc : c ∉ [Csr.id, Csr.capacity, Csr.progress, Csr.imgSize, Csr.msgSize]) (v : Word) : (csrWrite c v s).2 = .okay := by
  cases c with
  | id | capacity | progress | imgSize | msgSize => exact absurd (by decide) hc
  | status | intStatus | intEnable => rfl
  | cmd => rw [csrWrite_cmd_of_idle hidle]
  | width | height | encLen | decBits | clampCnt => rw [csrWrite, whileIdle_of_idle hidle]

/-- While idle every admitted write of a writable register is performed. -/
theorem busWrite_okay_of_idle {x : Transaction} {s : State} (hidle : s.busy = false)
    (hl : legalShape (regionOf s.params x.addr.toNat) x = true) (hqtab : ∀ k, regionOf s.params x.addr.toNat ≠ .qtab k)
    (hcsr : ∀ c ∈ [Csr.id, Csr.capacity, Csr.progress, Csr.imgSize, Csr.msgSize], regionOf s.params x.addr.toNat ≠ .csr c) :
    (busWrite x s).2 = .okay := by
  obtain ⟨n, hn, -, hreserved, -⟩ := legalShape_iff.mp hl
  cases hr : regionOf s.params x.addr.toNat with
  | csr c => rw [busWrite_csr hl hr, csrWrite_okay_of_idle hidle fun hc => hcsr c hc hr]
  | qtab k => exact absurd hr (hqtab k)
  | reserved => exact absurd hr hreserved
  | blk k => rw [busWrite_blk hl hidle hr]
  | coef k => rw [busWrite_coef hl hidle hr]
  | qblk k => rw [busWrite_qblk hl hidle hr]
  | msg j => rw [busWrite_msg hl hidle hn hr]
  | img a => rw [busWrite_img hl hidle hn hr]

theorem getElem_set_same (b : Block) (k : Fin 64) (v : Word) : (b.set k v)[k] = v := Vector.getElem_set_self ..

theorem getElem_set_other (b : Block) {k k' : Fin 64} (v : Word) (h : k' ≠ k) : (b.set k v)[k'] = b[k'] :=
  Vector.getElem_set_ne _ _ fun hk => h (Fin.ext hk.symm)

/-- A BUSY engine refuses its operand registers and its storage. -/
theorem busWrite_operand_of_busy {x : Transaction} {s : State} (hbusy : s.busy = true)
    (hl : legalShape (regionOf s.params x.addr.toNat) x = true) {c : Csr}
    (hc : c ∈ [Csr.width, Csr.height, Csr.encLen, Csr.decBits, Csr.clampCnt]) (hr : regionOf s.params x.addr.toNat = .csr c) :
    busWrite x s = (s, .error) := by
  rw [busWrite_csr hl hr]
  revert c
  simp [csrWrite, whileIdle_of_busy hbusy]

theorem hostAccess_refused {x : Transaction} {s : State} (hread : x.write = false → busRead x s = .ok (.error, 0#32))
    (hwrite : x.write = true → busWrite x s = (s, .error)) : hostAccess x s = .next (s.refusedAccess x) := by
  cases hw : x.write with
  | true => simpa [State.refusedAccess, hw] using hostAccess_write_eq hw (hwrite hw)
  | false => simpa [State.refusedAccess, hw] using hostAccess_read_eq hw (hread hw)

/-- Settles O21: one rule of the bus for each clause. -/
theorem busyEngineRefusesItsOperandsAndMemories : Obligations.BusyEngineRefusesItsOperandsAndMemories := by
  refine ⟨fun s x hbusy hl => ?busy, fun s x hidle hl hw => ?idleRead, fun s x hidle hl hw => ?idleWrite⟩
  case busy =>
    refine ⟨fun c hr hw => hostAccess_read_eq hw (busRead_csr hl hr), fun k hr hw => hostAccess_read_eq hw (busRead_qtab hl hr),
      fun c hc hr hw => ⟨_, hostAccess_of_write hw, ?_⟩, fun hr hw => ?_, fun c hc hr hw => ?_, fun hr => ?_⟩
    · rw [busWrite_csr hl hr]
      revert c
      simp [csrWrite]
    · exact hostAccess_write_eq hw ((busWrite_csr hl hr).trans (csrWrite_cmd_of_busy hbusy _))
    · exact hostAccess_refused (fun hw' => by cases hw.symm.trans hw') fun _ => busWrite_operand_of_busy hbusy hl hc hr
    · exact hostAccess_refused (fun _ => busRead_buffer_of_busy hl hbusy hr) fun _ => busWrite_buffer_of_busy hl hbusy hr
  case idleRead =>
    refine ⟨fun c hr => hostAccess_read_eq hw (busRead_csr hl hr), fun k => ⟨fun hr => ?_, fun hr => ?_, fun hr => ?_, fun hr => ?_⟩,
      fun a n hn => ⟨fun hr => ⟨fun hwritten => ?_, fun hnone => ?_⟩, fun hr => ⟨fun hwritten => ?_, fun hnone => ?_⟩⟩⟩
    · exact hostAccess_read_eq hw (busRead_qtab hl hr)
    · exact hostAccess_read_eq hw (busRead_blk hl hidle hr)
    · exact hostAccess_read_eq hw (busRead_coef hl hidle hr)
    · exact hostAccess_read_eq hw (busRead_qblk hl hidle hr)
    · exact ⟨_, hostAccess_read_eq hw (busRead_msg hl hidle hn hr (memoryRead_of_written hwritten))⟩
    · exact (hostAccess_msg_of_unwritten hidle hw hn hl hr hnone).imp fun _ => And.left
    · exact ⟨_, hostAccess_read_eq hw (busRead_img hl hidle hn hr (memoryRead_of_written hwritten))⟩
    · exact (hostAccess_img_of_unwritten hidle hw hn hl hr hnone).imp fun _ => And.left
  case idleWrite =>
    obtain ⟨n, hn⟩ := legalShape_bytes hl
    refine ⟨fun k => ⟨fun hr => ?_, fun hr => ?_, fun hr => ?_⟩, fun hr => ?_, fun a => ⟨fun hr => ?_, fun hr => ?_⟩,
      fun hqtab hcsr => ?_⟩
    · exact ⟨_, hostAccess_write_eq hw (busWrite_blk hl hidle hr), getElem_set_same ..,
        fun k' hk => getElem_set_other _ _ hk, rfl⟩
    · exact ⟨_, hostAccess_write_eq hw (busWrite_coef hl hidle hr), getElem_set_same ..,
        fun k' hk => getElem_set_other _ _ hk, rfl⟩
    · exact ⟨_, hostAccess_write_eq hw (busWrite_qblk hl hidle hr), getElem_set_same ..,
        fun k' hk => getElem_set_other _ _ hk, rfl⟩
    · exact hostAccess_write_eq hw ((busWrite_csr hl hr).trans (whileIdle_of_idle hidle _))
    · exact ⟨_, hostAccess_write_eq hw (busWrite_msg hl hidle hn hr), rfl⟩
    · exact ⟨_, hostAccess_write_eq hw (busWrite_img hl hidle hn hr), rfl⟩
    · exact ⟨_, hostAccess_of_write hw, by rw [busWrite_okay_of_idle hidle hl hqtab hcsr]⟩

end Sys2Proof.Machine
end

section
/-! The status words and the turns (10_state.md R28, R35; 20_memory.md R69, R75): STATUS bit by bit, the clear of an event that
meets a completion, and what a turn of the engine or of the host does. -/

namespace Sys2Proof.Machine

/-! ### STATUS bit by bit (10_state.md R28) -/

/-- STATUS from its fields: OVR, SAT, LASTBIT, ERR_CODE, ERR and BUSY, with the reserved bits 0. -/
theorem statusWord_getLsbD (s : State) (b : Nat) : (statusWord s).getLsbD b =
    (b == 0 && s.busy || b == 1 && s.status.err || decide (4 ≤ b) && s.status.errCode.bits.getLsbD (b - 4) ||
      b == 8 && s.status.lastBit || b == 16 && s.status.sat || b == 17 && s.status.ovr) := by
  change BitVec.getLsbD (w := 14 + 1 + 1 + 7 + 1 + 4 + 2 + 1 + 1)
    (0#14 ++ BitVec.ofBool s.status.ovr ++ BitVec.ofBool s.status.sat ++ 0#7 ++ BitVec.ofBool s.status.lastBit ++
      s.status.errCode.bits ++ 0#2 ++ BitVec.ofBool s.status.err ++ BitVec.ofBool s.busy) b = _
  simp only [BitVec.getLsbD_append]
  rcases Nat.lt_or_ge b 18 with hb | hb
  · interval_cases b <;> simp
  · obtain ⟨j, rfl⟩ := Nat.exists_eq_add_of_le' hb
    simp

theorem statusWord_errCode (s : State) : (statusWord s).extractLsb' 4 4 = s.status.errCode.bits := by
  refine BitVec.eq_of_getLsbD_eq fun b hb => ?_
  rw [BitVec.getLsbD_extractLsb', statusWord_getLsbD]
  interval_cases b <;> simp

/-- Settles O13: `statusWord_getLsbD` at each bit. -/
theorem statusReadsItsFields : Obligations.StatusReadsItsFields := by
  refine ⟨fun s => ⟨read32_csr .status s, ?_, ?_, statusWord_errCode s, ?_, ?_, ?_, fun b hb => ?_⟩,
    rfl, rfl, rfl, rfl, rfl, rfl, rfl⟩
  · rw [statusWord_getLsbD_zero, busy_iff]
  · exact (statusWord_getLsbD s 1).trans (by simp)
  · exact (statusWord_getLsbD s 8).trans (by simp)
  · exact (statusWord_getLsbD s 16).trans (by simp)
  · exact (statusWord_getLsbD s 17).trans (by simp)
  · rw [statusWord_getLsbD]
    fin_cases hb <;> simp

/-! ### INT_STATUS and a completion (10_state.md R35) -/

theorem write32_intStatus (s : State) (v : Word) :
    hostAccess (write32 0x00C#25 v) s =
      .next { s with intStatus := s.intStatus.clear v, lastResponse := some (.write .okay) } :=
  write32_csr (c := .intStatus) rfl

/-- Settles O15: the completion starts from the events that the clear has left. -/
theorem intStatusWriteClearsAndTheSetWins : Obligations.IntStatusWriteClearsAndTheSetWins := by
  refine ⟨write32_intStatus, fun s => ⟨read32_csr .intStatus s, ?_, ?_, ?_, ?_⟩, fun s u t v hbusy herr hu ht hidle => ?_,
    fun s u v hcheck hnop hu => ?_⟩
  · exact (Events.getLsbD_word s.intStatus 0).trans (by simp)
  · exact (Events.getLsbD_word s.intStatus 1).trans (by simp)
  · exact (Events.getLsbD_word s.intStatus 2).trans (by simp)
  · refine BitVec.eq_of_getLsbD_eq fun b hb => ?_
    obtain ⟨h1, h2⟩ : 3 + b ≠ 1 ∧ 3 + b ≠ 2 := by omega
    simp [Events.getLsbD_word, h1, h2]
  · cases (write32_intStatus s v).symm.trans hu
    have hbusy' : State.busy { s with intStatus := s.intStatus.clear v, lastResponse := some (.write .okay) } = true :=
      (busy_iff _).2 hbusy
    exact (engineStep_completesOrLoops hbusy' ht).intStatus_of_idle herr hidle
  · cases (write32_intStatus s v).symm.trans hu
    exact ⟨_, engineStep_of_nop ((busy_iff _).2 (by simp [hcheck])) hnop, rfl, rfl⟩

/-! ### The engine's turn (40_command.md R96) -/

theorem step_of_defaultEngine {s : State} (hrst : s.rstN = true) (hturn : s.schedule = []) (hbusy : s.busy = true) :
    step s = engineStep s := by
  simp [step, interleave, takeTurn, defaultTurn, hturn, hbusy, hrst]

theorem step_of_defaultHost {s : State} (hrst : s.rstN = true) (hturn : s.schedule = []) (hidle : s.busy = false) :
    step s = hostStep s := by
  simp [step, interleave, takeTurn, defaultTurn, hturn, hidle, hrst]

/-- Settles O6: the turn, fixed or default, is the engine's, and its step is that of the latched command. -/
theorem stepRunsTheLatchedCommand : Obligations.StepRunsTheLatchedCommand := by
  intro s i hrst hphase hi
  have hbusy : s.busy = true := (busy_iff s).2 hphase
  refine ⟨fun rest hturn => ?_, fun hturn => ?_⟩
  · rw [step_of_engineTurn hrst hturn]
    exact engineStep_of_legal hbusy hi
  · rw [step_of_defaultEngine hrst hturn hbusy, engineStep_of_legal hbusy hi]

/-! ### The host's turn (20_memory.md R69; 30_encoding.md R91) -/

theorem hostStep_access {s : State} {x : Transaction} {more : List HostStmt} (h : s.host = .access x :: more) :
    hostStep s = hostAccess x { s with host := more } := by
  simp only [hostStep, h]

/-- The read of STATUS by POLL or CHECKOK, which leaves the statements `stmts` to run. -/
theorem hostAccess_readStatus (s : State) (stmts : List HostStmt) : hostAccess readStatus { s with host := stmts } =
    .next { s with host := stmts, lastResponse := some (.read .okay (statusWord s)) } :=
  read32_csr .status { s with host := stmts }

theorem hostStep_poll_of_busy {s : State} {more : List HostStmt} (hbusy : s.busy = true) (hstmt : s.host = .poll :: more) :
    hostStep s = .next { s with lastResponse := some (.read .okay (statusWord s)) } := by
  simp only [hostStep, hstmt, statusWord_getLsbD_zero, hbusy, if_true]
  exact (hostAccess_readStatus s (.poll :: more)).trans (by rw [← hstmt])

theorem hostStep_checkOk {s : State} {more : List HostStmt} (hstmt : s.host = .checkOk :: more)
    (hok : (statusWord s).extractLsb' 1 7 = 0#7) :
    hostStep s = .next { s with host := more, lastResponse := some (.read .okay (statusWord s)) } := by
  simp only [hostStep, hstmt, hok, if_true]
  exact hostAccess_readStatus s more

theorem hostStep_checkFailed {s : State} {more : List HostStmt} (hstmt : s.host = .checkOk :: more)
    (hfail : (statusWord s).extractLsb' 1 7 ≠ 0#7) : hostStep s = .fault .checkFailed := by
  simp only [hostStep, hstmt, if_neg hfail]

theorem hostStep_of_nil {s : State} (h : s.host = []) : hostStep s = .next s := by
  simp only [hostStep, h]

theorem engineStep_of_idle {s : State} (h : s.busy = false) : engineStep s = .next s := by
  simp [engineStep, h]

/-- Settles O7: the turn is the host's or that of an idle engine, and `hostStep` runs the next statement. -/
theorem stepGivesTheHostItsTurn : Obligations.StepGivesTheHostItsTurn := by
  refine ⟨fun s x more hrst hstmt => ⟨fun rest hturn => ?_, fun hturn hidle => ?_⟩,
    fun s more rest hrst hturn => ?_, fun s hidle => ⟨fun rest hturn => ?_, fun hturn hstmt => ?_⟩⟩
  · rw [step_of_hostTurn hrst hturn]
    exact hostStep_access (s := { s with schedule := rest }) hstmt
  · rw [step_of_defaultHost hrst hturn ((not_busy_iff s).2 hidle), hostStep_access hstmt]
  · rw [step_of_hostTurn hrst hturn]
    exact ⟨fun hstmt hbusy => hostStep_poll_of_busy (s := { s with schedule := rest }) ((busy_iff s).2 hbusy) hstmt,
      fun hstmt hidle => hostStep_poll_of_idle (s := { s with schedule := rest }) ((not_busy_iff s).2 hidle) hstmt,
      fun hstmt hok => hostStep_checkOk (s := { s with schedule := rest }) hstmt hok,
      fun hstmt hfail => hostStep_checkFailed (s := { s with schedule := rest }) hstmt hfail,
      fun hstmt => hostStep_of_nil (s := { s with schedule := rest }) hstmt⟩
  · have hstep : engineStep { s with schedule := rest } = .next { s with schedule := rest } :=
      engineStep_of_idle ((not_busy_iff s).2 hidle)
    simp [step, interleave, takeTurn, hturn, hstep]
  · have hbusy := (not_busy_iff s).2 hidle
    simp [step, interleave, takeTurn, defaultTurn, hturn, hbusy, hostStep_of_nil hstmt]

end Sys2Proof.Machine
end

section
/-! The block commands (41_transform.md section 3, 42_quantizer.md, 43_tiler.md section 2, 44_bitstream.md): rounding to nearest,
the sample conversion, the storing of an entry, and what each command leaves. -/

namespace Sys2Proof.Machine

/-! ### The Transform (41_transform.md R113, R114) -/

theorem exec_fdct (s : State) : exec .fdct s = .next (fdctBody s).finished := congrArg Host.Outcome.next (finish_eq (fdctBody s))

theorem exec_idct (s : State) : exec .idct s = .next (idctBody s).finished := congrArg Host.Outcome.next (finish_eq (idctBody s))

theorem exists_block_iff {P : Fin 64 → Prop} : (∃ k, P k) ↔ ∃ u v, P (blockIndex u v) :=
  ⟨fun ⟨k, h⟩ => ⟨rowOf k, colOf k, by rwa [blockIndex_rowOf_colOf]⟩, fun ⟨u, v, h⟩ => ⟨_, h⟩⟩

/-- Settles O26: the sum over both passes, saturated. -/
theorem fdctTransformsBlkIntoCoef : Obligations.FdctTransformsBlkIntoCoef := by
  refine fun s => ⟨_, exec_fdct s, fun u v => ?_, ?_, rfl⟩
  · exact (saturateBlock_getElem _ _).trans (congrArg sat32 (fdctExact_getElem ..))
  · change (s.status.sat || clips (fdctExact s.blk)) = true ↔ _
    rw [Bool.or_eq_true, clips_iff, exists_block_iff]
    simp only [fdctExact_getElem, sext32]

/-- Settles O27: the sum over both passes, saturated. -/
theorem idctTransformsCoefIntoBlk : Obligations.IdctTransformsCoefIntoBlk := by
  refine fun s => ⟨_, exec_idct s, fun x y => ?_, ?_, rfl⟩
  · exact (saturateBlock_getElem _ _).trans (congrArg sat32 (idctExact_getElem ..))
  · change (s.status.sat || clips (idctExact s.coef)) = true ↔ _
    rw [Bool.or_eq_true, clips_iff, exists_block_iff]
    simp only [idctExact_getElem, sext32]

/-! ### Rounding to nearest, ties away from zero (00_scope.md R15) -/

theorem rha_natCast (n b : Nat) : rha n b = ((2 * n + b) / (2 * b) : Nat) := by
  cases n with
  | zero =>
    have hzero : b / (2 * b) = 0 := by
      rcases Nat.eq_zero_or_pos b with rfl | hb
      · rfl
      · exact Nat.div_eq_of_lt (by omega)
    simp [rha, hzero]
  | succ n => rw [rha, Int.sign_eq_one_of_pos (by omega), Int.one_mul, Int.natAbs_natCast]

theorem rha_neg (a : Int) (b : Nat) : rha (-a) b = -rha a b := by
  simp [rha, Int.sign_neg]

/-- `rha` is the nearest multiple: at most half a step away, and at half a step the one farther from zero. -/
theorem rha_nearest (a : Int) {b : Nat} (hb : 0 < b) :
    2 * |a - rha a b * b| ≤ b ∧ (2 * |a - rha a b * b| = b → |a| < |rha a b * b|) := by
  have nonneg (n : Nat) : 2 * |(n : Int) - rha n b * b| ≤ b ∧ (2 * |(n : Int) - rha n b * b| = b → |(n : Int)| < |rha n b * b|) := by
    have hdiv := Nat.div_add_mod (2 * n + b) (2 * b)
    have hmod := Nat.mod_lt (2 * n + b) (show 0 < 2 * b by omega)
    rw [rha_natCast]
    generalize (2 * n + b) / (2 * b) = m at *
    have hm : 2 * b * m = 2 * (m * b) := by ring
    rw [← Nat.cast_mul, Nat.abs_cast, Nat.abs_cast]
    generalize m * b = p at *
    rcases abs_cases ((n : Int) - (p : Nat)) with ⟨h, _⟩ | ⟨h, _⟩ <;> rw [h] <;> omega
  obtain ⟨n, rfl | rfl⟩ := a.eq_nat_or_neg
  · exact nonneg n
  · have hneg : -(n : Int) - rha (-n) b * b = -((n : Int) - rha n b * b) := by rw [rha_neg]; ring
    rw [hneg, abs_neg, abs_neg, rha_neg, neg_mul, abs_neg]
    exact nonneg n

theorem rha_mul_self (q : Int) {b : Nat} (hb : 0 < b) : rha (q * b) b = q := by
  have nonneg (n : Nat) : rha ((n : Int) * b) b = n := by
    have hdiv : (2 * (n * b) + b) / (2 * b) = n := by
      rw [show 2 * (n * b) + b = n * (2 * b) + b by ring]
      exact mul_add_div_of_lt (by omega) n
    rw [← Nat.cast_mul, rha_natCast, hdiv]
  obtain ⟨n, rfl | rfl⟩ := q.eq_nat_or_neg
  · exact nonneg n
  · rw [neg_mul, rha_neg, nonneg]

/-- The multiple is at most half a step farther from zero; with step 0 it is 0. -/
theorem abs_rha_mul_le (a : Int) (b : Nat) : 2 * (|rha a b| * b) ≤ 2 * |a| + b := by
  rcases Nat.eq_zero_or_pos b with rfl | hb
  · simp
  · obtain ⟨h, -⟩ := rha_nearest a hb
    have htri : |rha a b * b| ≤ |a| + |a - rha a b * b| := by
      have := abs_sub a (a - rha a b * b)
      rwa [sub_sub_cancel] at this
    rw [abs_mul, Nat.abs_cast] at htri
    linarith

/-! ### The Quantizer (42_quantizer.md) -/

theorem exec_quant (s : State) : exec .quant s = .next (quantBody s).finished := congrArg Host.Outcome.next (finish_eq (quantBody s))

theorem exec_dequant (s : State) : exec .dequant s = .next (dequantBody s).finished :=
  congrArg Host.Outcome.next (finish_eq (dequantBody s))

/-- A quotient by a divisor of at least `2^16` is at most 32768 in magnitude. -/
theorem abs_rha_le (c : Word) (d : Nat) : |rha (sext32 c) (d * 2 ^ 16)| ≤ 32768 := by
  rcases Nat.eq_zero_or_pos d with rfl | hd
  · simp [rha]
  · have hc := sext32_bounds c
    have habs : |sext32 c| ≤ 2 ^ 31 := abs_le.mpr ⟨by omega, by omega⟩
    have hle := abs_rha_mul_le (sext32 c) (d * 2 ^ 16)
    by_contra hlt
    have hmul : 32769 * ((d * 2 ^ 16 : Nat) : Int) ≤ |rha (sext32 c) (d * 2 ^ 16)| * ((d * 2 ^ 16 : Nat) : Int) :=
      mul_le_mul_of_nonneg_right (by omega) (by omega)
    omega

theorem sext32_quantize (p : Params) (coef : Block) (k : Fin 64) :
    sext32 (quantize p coef)[k] = rha (sext32 coef[k]) (divisor p k * 2 ^ 16) := by
  have hle := abs_le.mp (abs_rha_le coef[k] (divisor p k))
  have hword : (quantize p coef)[k] = wordOfInt (rha (sext32 coef[k]) (divisor p k * 2 ^ 16)) := by simp [quantize]
  rw [hword]
  exact sext32_wordOfInt (by omega) (by omega)

theorem divisor_pos {p : Params} (hp : p.valid) (k : Fin 64) : 0 < divisor p k * 2 ^ 16 := by
  have hne : p.qtab[k].toNat ≠ 0 := fun h => hp.2.2 k (BitVec.eq_of_toNat_eq h)
  have : divisor p k = p.qtab[k].toNat := rfl
  omega

/-- Settles O31: `rha_nearest` for each word. -/
theorem quantRoundsToNearestTiesAway : Obligations.QuantRoundsToNearestTiesAway := by
  refine fun s hp => ⟨_, exec_quant s, fun k => ?_, rfl⟩
  have hq : sext32 (quantize s.params s.coef)[k] = rha (sext32 s.coef[k]) (divisor s.params k * 2 ^ 16) := sext32_quantize ..
  have hd : ((divisor s.params k * 2 ^ 16 : Nat) : Int) = (s.params.qtab[k]).toNat * 2 ^ 16 := by simp [divisor]
  obtain ⟨hnear, htie⟩ := rha_nearest (sext32 s.coef[k]) (divisor_pos hp k)
  rw [← hq, hd] at hnear htie
  exact ⟨hq, hnear, htie, (congrArg abs hq).trans_le (abs_rha_le ..)⟩

theorem dequantExact_getElem (p : Params) (q : Block) (k : Fin 64) :
    (dequantExact p q)[k] = sext32 q[k] * (divisor p k * 2 ^ 16 : Nat) := by
  simp [dequantExact]

theorem dequantExact_eq (p : Params) (q : Block) (k : Fin 64) :
    (dequantExact p q)[k] = q[k].toInt * (p.qtab[k]).toNat * 2 ^ 16 := by
  rw [dequantExact_getElem, Nat.cast_mul, ← mul_assoc]
  rfl

/-- Settles O32: a product of integers is clipped exactly when it is not in Q15.16. -/
theorem dequantMultipliesAndSaturates : Obligations.DequantMultipliesAndSaturates := by
  refine fun s => ⟨_, exec_dequant s, fun k => ?_, ?_, rfl⟩
  · exact (saturateBlock_getElem _ _).trans (congrArg sat32 (dequantExact_eq ..))
  · change (s.status.sat || clips (dequantExact s.params s.qblk)) = true ↔ _
    rw [Bool.or_eq_true, clips_iff]
    refine or_congr_right (exists_congr fun k => ?_)
    rw [dequantExact_eq]
    generalize (s.qblk[k]).toInt * (s.params.qtab[k]).toNat = z
    unfold sat32
    omega

/-- Settles O33: a product that is not clipped is a multiple of the divisor, and `rha` of a multiple is exact. -/
theorem dequantThenQuantReturnsTheWord : Obligations.DequantThenQuantReturnsTheWord := by
  refine fun s hp => ⟨_, _, exec_dequant s, exec_quant _, fun k hk => ?_⟩
  change (quantize s.params (saturateBlock (dequantExact s.params s.qblk)))[k] = _
  have hsat : sext32 (saturateBlock (dequantExact s.params s.qblk))[k] = sext32 s.qblk[k] * (divisor s.params k * 2 ^ 16 : Nat) := by
    rw [saturateBlock_getElem, ← dequantExact_getElem, dequantExact_eq]
    obtain ⟨hlo, hhi⟩ := abs_lt.mp hk
    exact sat32_eq_self (by omega) (by omega)
  have hquant := sext32_quantize s.params (saturateBlock (dequantExact s.params s.qblk)) k
  rw [hsat, rha_mul_self _ (divisor_pos hp k)] at hquant
  exact BitVec.toInt_inj.mp hquant

end Sys2Proof.Machine
end

section
/-! The Tiler and the embedding commands (43_tiler.md section 2; 44_bitstream.md sections 1 and 3): the sample conversion, what
the storing of an entry writes and keeps, when it restores the image, and the statements about the commands. -/

namespace Sys2Proof.Machine

/-! ### The checks (43_tiler.md R129, R130) -/

theorem tileCheck_noError {s : State} {idx : Nat} (hgeo : s.geometryOk) (hidx : idx < s.capacity) : tileCheck idx s = .noError := by
  obtain ⟨hlarge, hsmall⟩ := checks_of_geometryOk hgeo
  simp [tileCheck, hlarge, hsmall, hidx]

theorem tileCheck_imageTooLarge {s : State} (idx : Nat) (h : s.tooLarge = true) : tileCheck idx s = .imageTooLarge := if_pos h

theorem tileCheck_imageTooSmall {s : State} (idx : Nat) (hlarge : s.tooLarge = false) (hsmall : s.tooSmall = true) :
    tileCheck idx s = .imageTooSmall := by simp [tileCheck, hlarge, hsmall]

theorem tileCheck_indexOutOfRange {s : State} {idx : Nat} (hgeo : s.geometryOk) (hidx : idx ≥ s.capacity) :
    tileCheck idx s = .indexOutOfRange := by
  obtain ⟨hlarge, hsmall⟩ := checks_of_geometryOk hgeo
  simp [tileCheck, hlarge, hsmall, hidx]

theorem exec_tile_of_error {s : State} {idx : Nat} {e : ErrorCode} (he : e ≠ .noError) (h : tileCheck idx s = e) :
    ∀ c ∈ [Instr.tileLoad idx, Instr.tileStore idx], exec c s = .next (s.failed e) := by
  simp [exec, execTileLoad, execTileStore, h, he, raiseError_eq he]

/-- Settles O37: the clauses are the branches of `tileCheck`. -/
theorem tileCommandsCheckInOrder : Obligations.TileCommandsCheckInOrder := by
  refine fun s idx c hc => ⟨fun hlarge => ?_, fun hfits hsmall => ?_, fun hgeo hidx => ?_⟩
  · exact exec_tile_of_error (by decide) (tileCheck_imageTooLarge idx ((tooLarge_iff s).mpr hlarge)) c hc
  · exact exec_tile_of_error (by decide)
      (tileCheck_imageTooSmall idx ((tooLarge_eq_false_iff s).mpr hfits) ((tooSmall_iff s).mpr hsmall)) c hc
  · exact exec_tile_of_error (by decide) (tileCheck_indexOutOfRange hgeo hidx) c hc

/-! ### TILE_LOAD (43_tiler.md R129) -/

theorem exec_tileLoad_of_written {s : State} {idx : Nat} (hgeo : s.geometryOk) (hidx : idx < s.capacity) (h : s.entryWritten idx) :
    exec (.tileLoad idx) s = .next (State.finished { s with blk := loadedBlock s.img s.width.toNat idx }) := by
  simp [exec, execTileLoad, tileCheck_noError hgeo hidx, tileLoadBody_of_written h]

theorem sext32_loadedBlock {m : Memory} {W idx : Nat} {k : Fin 64} {p : Byte} (h : m.read (sampleAddr W idx k) = some p) :
    sext32 (loadedBlock m W idx)[k] = p.toNat * 2 ^ 16 := by
  rw [loadedBlock_getElem, h, Option.getD_some, sext32_sampleWord]

/-- Settles O35: the loaded words are the samples of the written bytes. -/
theorem tileLoadLoadsTheEntry : Obligations.TileLoadLoadsTheEntry := fun _ _ hgeo hidx h =>
  ⟨_, exec_tileLoad_of_written hgeo hidx h, fun _ _ => sext32_loadedBlock, fun _ => rfl, rfl⟩

/-! ### The sample conversion (43_tiler.md R131) -/

theorem rha_sample_neg {z : Int} (h : z ≤ -32768) : rha z (2 ^ 16) < 0 := by
  obtain ⟨n, rfl⟩ := Int.eq_ofNat_of_zero_le (show 0 ≤ -z by omega) |>.imp fun n hn => neg_eq_iff_eq_neg.mp hn
  rw [rha_neg, rha_natCast]
  omega

/-- Above -0.5 the nearest integer, ties away from zero, is the nearest integer, ties up. -/
theorem rha_sample {z : Int} (h : -32768 < z) : rha z (2 ^ 16) = (z + 32768) / 65536 := by
  obtain ⟨n, rfl | rfl⟩ := z.eq_nat_or_neg
  · rw [rha_natCast]; omega
  · rw [rha_neg, rha_natCast]; omega

/-- Settles O38: `rha_sample` is below 256 exactly when the word is below 255.5. -/
theorem samplesRoundThenClamp : Obligations.SamplesRoundThenClamp := by
  refine fun v => ⟨fun hlow => ?_, fun hlo hhi => ?_, fun hhigh => ?_⟩
  · simp only [toSample, sext32, rha_sample_neg hlow, if_true]
  · have hr : rha (sext32 v) (2 ^ 16) = (v.toInt + 32768) / 65536 := rha_sample hlo
    have hrange : 0 ≤ (v.toInt + 32768) / 65536 ∧ (v.toInt + 32768) / 65536 ≤ 255 := by omega
    simp only [toSample, hr, if_neg (show ¬(v.toInt + 32768) / 65536 < 0 by omega),
      if_neg (show ¬(v.toInt + 32768) / 65536 > 255 by omega), BitVec.toNat_ofNat, true_and]
    omega
  · have hr : rha (sext32 v) (2 ^ 16) = (v.toInt + 32768) / 65536 := rha_sample (by rw [sext32]; omega)
    simp only [toSample, hr, if_neg (show ¬(v.toInt + 32768) / 65536 < 0 by omega),
      if_pos (show (v.toInt + 32768) / 65536 > 255 by omega)]

/-- A word less than half a step from a sample converts to it, unclamped. -/
theorem toSample_of_near {v : Word} {p : Byte} (h : |sext32 v - p.toNat * 2 ^ 16| < 32768) : toSample v = (p, false) := by
  obtain ⟨hlo, hhi⟩ := abs_lt.mp h
  have hp := p.isLt
  obtain ⟨-, hmid, -⟩ := samplesRoundThenClamp v
  obtain ⟨hclamp, hval⟩ := hmid (by rw [sext32] at hlo; omega) (by rw [sext32] at hhi; omega)
  refine Prod.ext (BitVec.eq_of_toNat_eq ?_) hclamp
  rw [sext32] at hlo hhi
  change (toSample v).1.toNat = p.toNat
  omega

/-! ### The storing of an entry (43_tiler.md R130, R132, R133) -/

theorem storedSamples_pairwise {W : Nat} (hW : 8 ≤ W) (idx : Nat) (blk : Block) :
    (storedSamples W idx blk).Pairwise fun x y => x.1 ≠ y.1 := by
  unfold storedSamples
  rw [List.pairwise_map]
  exact (List.nodup_finRange 64).imp fun hne h => hne (Fin.ext (sampleAddr_inj hW (Fin.isLt _) (Fin.isLt _) h).2)

theorem read_storedSamples (m : Memory) {W : Nat} (hW : 8 ≤ W) (idx : Nat) (blk : Block) (k : Fin 64) :
    (m.writeAll (storedSamples W idx blk)).read (sampleAddr W idx k) = some (toSample blk[k]).1 :=
  Memory.read_writeAll_of_mem m (storedSamples_pairwise hW idx blk) (mem_storedSamples.mpr ⟨k, rfl⟩)

theorem read_storedSamples_other (m : Memory) {W idx a : Nat} (blk : Block) (h : ∀ k : Fin 64, a ≠ sampleAddr W idx k) :
    (m.writeAll (storedSamples W idx blk)).read a = m.read a := by
  refine Memory.read_writeAll_of_notMem m fun x hx hax => ?_
  obtain ⟨k, rfl⟩ := mem_storedSamples.mp hx
  exact h k hax

theorem clampsOf_eq_card (blk : Block) : clampsOf blk = (Finset.univ.filter fun k : Fin 64 => (toSample blk[k]).2 = true).card := by
  have huniv : (Finset.univ.filter fun k : Fin 64 => (toSample blk[k]).2 = true).card =
      ((List.finRange 64).filter fun k => decide ((toSample blk[k]).2 = true)).length := rfl
  rw [huniv, clampsOf, List.countP_eq_length_filter]
  simp only [Bool.decide_eq_true]

theorem clampsOf_pos_iff (blk : Block) : clampsOf blk > 0 ↔ ∃ k : Fin 64, (toSample blk[k]).2 = true := by
  simp [clampsOf_eq_card, Finset.card_pos, Finset.filter_nonempty_iff]

theorem tileStoreBody_clampCnt (idx : Nat) (s : State) : (tileStoreBody idx s).clampCnt.toNat =
    min (s.clampCnt.toNat + (Finset.univ.filter fun k : Fin 64 => (toSample s.blk[k]).2 = true).card) (2 ^ 32 - 1) := by
  rw [tileStoreBody, countClamps_clampCnt, clampsOf_eq_card]
  rfl

theorem tileStoreBody_warnPending (idx : Nat) (s : State) : (tileStoreBody idx s).warnPending = true ↔
    s.warnPending = true ∨ ∃ k : Fin 64, (toSample s.blk[k]).2 = true := by
  rw [tileStoreBody, countClamps_warnPending, Bool.or_eq_true, decide_eq_true_iff, clampsOf_pos_iff]

theorem exec_tileStore {s : State} {idx : Nat} (hgeo : s.geometryOk) (hidx : idx < s.capacity) :
    exec (.tileStore idx) s = .next (tileStoreBody idx s).finished := by
  simp [exec, execTileStore, tileCheck_noError hgeo hidx]

/-- TILE_STORE's body changes IMG, CLAMP_CNT and `warn_pending`. -/
theorem tileStoreBody_eq (idx : Nat) (s : State) : tileStoreBody idx s = { s with
    img := (tileStoreBody idx s).img
    clampCnt := (tileStoreBody idx s).clampCnt
    warnPending := (tileStoreBody idx s).warnPending } := by
  unfold tileStoreBody countClamps
  split <;> rfl

/-- Settles O36: the 64 addresses of an entry differ, so each holds the sample stored last. -/
theorem tileStoreStoresTheEntry : Obligations.TileStoreStoresTheEntry := by
  intro s idx hgeo hidx
  refine ⟨_, exec_tileStore hgeo hidx, fun k => ?_, fun a ha => ?_, tileStoreBody_clampCnt idx s, tileStoreBody_warnPending idx s,
    ?_, ?_⟩
  · exact (congrArg (Memory.read · _) (tileStoreBody_img idx s)).trans (read_storedSamples _ hgeo.2.1 idx s.blk k)
  · exact (congrArg (Memory.read · _) (tileStoreBody_img idx s)).trans (read_storedSamples_other _ s.blk ha)
  · simp only [tileStoreBody_intStatus]
  · rw [tileStoreBody_eq]

/-! ### Restoring an entry (43_tiler.md R134) -/

/-- Storing the samples that an entry already holds changes nothing. -/
theorem tileStoreBody_restores {s : State} {idx : Nat} (hwf : s.img.wf) (hW : 8 ≤ s.width.toNat)
    (h : ∀ k : Fin 64, ∃ p, s.img.read (sampleAddr s.width.toNat idx k) = some p ∧ toSample s.blk[k] = (p, false)) :
    tileStoreBody idx s = s := by
  have hclamps : clampsOf s.blk = 0 := by
    refine Nat.eq_zero_of_not_pos fun hpos => ?_
    obtain ⟨k, hk⟩ := (clampsOf_pos_iff _).mp hpos
    obtain ⟨p, -, hp⟩ := h k
    rw [hp] at hk
    cases hk
  have himg : s.img.writeAll (storedSamples s.width.toNat idx s.blk) = s.img := by
    refine Memory.ext_of_wf (Memory.wf_writeAll _ hwf) hwf fun a => ?_
    by_cases ha : ∃ k : Fin 64, a = sampleAddr s.width.toNat idx k
    · obtain ⟨k, rfl⟩ := ha
      obtain ⟨p, hread, hp⟩ := h k
      rw [read_storedSamples _ hW, hread, hp]
    · exact read_storedSamples_other _ _ (not_exists.mp ha)
  rw [tileStoreBody, hclamps, himg]
  rfl

theorem toSample_sampleWord (p : Byte) : toSample (sampleWord p) = (p, false) :=
  toSample_of_near (by rw [sext32_sampleWord]; simp)

/-- Settles O39: a loaded sample converts back to its byte. -/
theorem tileLoadThenTileStoreIsLossless : Obligations.TileLoadThenTileStoreIsLossless := by
  intro s idx hwf hgeo hidx hwritten
  have hrestore : tileStoreBody idx (State.finished { s with blk := loadedBlock s.img s.width.toNat idx }) =
      State.finished { s with blk := loadedBlock s.img s.width.toNat idx } := by
    refine tileStoreBody_restores hwf hgeo.2.1 fun k => ?_
    obtain ⟨p, hp⟩ := Option.isSome_iff_exists.mp (hwritten k)
    exact ⟨p, hp, by rw [loadedBlock_getElem, hp, Option.getD_some, toSample_sampleWord]⟩
  refine ⟨_, _, exec_tileLoad_of_written hgeo hidx hwritten, exec_tileStore hgeo hidx, ?_⟩
  rw [hrestore]
  exact ⟨rfl, rfl, rfl⟩

/-! ### The embedding commands and the payload (44_bitstream.md R135, R141, R142) -/

/-- Settles O40: only QBLK[0] is set, to the value of the embedding. -/
theorem embedForcesTheParityOfQblk0 : Obligations.EmbedForcesTheParityOfQblk0 := by
  refine fun s b => ⟨_, exec_embed b s, ?_, fun k hk => getElem_set_other s.qblk (k := 0) _ hk, rfl⟩
  have hq : (embedBody b s).finished.qblk[0] = embedBit s.qblk[0] b := embedBody_qblk_zero b s
  rw [hq, ← mod2_eq_emod]
  exact sext32_embedBit s.qblk[0] b

/-- Settles O41: the parity that EXTRACT reads is the remainder by 2. -/
theorem extractReadsTheParityOfQblk0 : Obligations.ExtractReadsTheParityOfQblk0 := by
  intro s
  have hbit : extractBit s.qblk[0] = decide ((s.qblk[0]).toInt % 2 = 1) := by
    rw [Bool.eq_iff_iff, extractBit_iff, mod2_eq_emod, decide_eq_true_iff]
    rfl
  rw [exec_extract, extractBody, hbit]
  rfl

theorem payloadBitOf_eq_getLsbD (byte : Byte) (i : Nat) : payloadBitOf byte i = byte.getLsbD (7 - i % 8) := by
  rw [payloadBitOf, BitVec.getLsbD, Nat.testBit_eq_decide_div_mod_eq]
  rfl

/-- Settles O44: the bit of a written byte, by its weight and by its number. -/
theorem payloadBitsAreMsbFirst : Obligations.PayloadBitsAreMsbFirst := by
  refine ⟨fun m i byte h => ⟨payloadBitOf byte i, ?_, beq_iff_eq, payloadBitOf_eq_getLsbD byte i⟩, by decide⟩
  simp only [payloadBit, h]

end Sys2Proof.Machine
end

section
/-! The accuracy of the Transform (41_transform.md R107, R115). Each of the four passes rounds a sum of products; written on a
common scale, its result is within half a unit of the sum. The rounding errors pass through the later passes with weights whose
sums the tables bound, and what is left are products of table rows that are orthogonal up to the rounding of the tables. -/

namespace Sys2Proof.Machine

/-! ### Rounding errors and weighted sums -/

theorem abs_two_pow_mul_rnd_sub_le (z : Int) {n : Nat} (hn : 1 ≤ n) : |2 ^ n * rnd z n - z| ≤ 2 ^ (n - 1) := by
  obtain ⟨m, rfl⟩ := Nat.exists_eq_add_of_le' hn
  obtain ⟨hlo, hhi⟩ := rnd_spec z (m + 1) hn
  push_cast at hlo hhi
  rw [Nat.add_sub_cancel, abs_le]
  rw [pow_succ] at hlo hhi ⊢
  constructor <;> linarith

theorem abs_sum_mul_le {ι : Type} [Fintype ι] (w : ι → Int) {f : ι → Int} {C : Int} (hf : ∀ i, |f i| ≤ C) :
    |∑ i, w i * f i| ≤ (∑ i, |w i|) * C := by
  rw [Finset.sum_mul]
  refine (Finset.abs_sum_le_sum_abs ..).trans (Finset.sum_le_sum fun i _ => ?_)
  rw [abs_mul]
  exact mul_le_mul_of_nonneg_left (hf i) (abs_nonneg _)

theorem abs_sum_mul_sub_le {ι : Type} [Fintype ι] (w : ι → Int) {f g : ι → Int} {C : Int} (hfg : ∀ i, |f i - g i| ≤ C) :
    |∑ i, w i * f i - ∑ i, w i * g i| ≤ (∑ i, |w i|) * C := by
  simpa only [mul_sub, Finset.sum_sub_distrib] using abs_sum_mul_le w hfg

/-! ### The tables (41_transform.md R109, R110) -/

/-- The weight of coefficient `(u, v)` in the word at `(x, y)`: `Kc[v][y] * Kc[u][x] * Sc[u][v]` (41_transform.md R114). -/
def idctWeight (x y : Fin 8) (p : Fin 8 × Fin 8) : Int := Kc p.2 y * (Kc p.1 x * Sc p.1 p.2)

/-- The products of two columns of `Kc`, each row `v` scaled by `Sc[u][v]` squared: nearly 0 for two different columns. -/
def columnGram (u y z : Fin 8) : Int := ∑ v, Sc u v ^ 2 * Kc v y * Kc v z

/-- The square of a column of `Kc` scaled by row `u` of `Sc`, were the tables exact: 1/8 or 1/4, in units of `2^-120`. -/
def gain (u : Fin 8) : Int := if u = 0 then 2 ^ 117 else 2 ^ 118

/-- The products of two columns of `Kc`, each row `u` scaled by its gain: nearly 0 for two different columns. -/
def rowGram (x z : Fin 8) : Int := ∑ u, gain u * Kc u x * Kc u z

theorem abs_Kc_le (u x : Fin 8) : |Kc u x| ≤ 2 ^ 30 := by revert u x; decide

theorem abs_Sc_le (u v : Fin 8) : |Sc u v| ≤ 2 ^ 28 := by revert u v; decide

theorem sum_abs_Kc_le (x : Fin 8) : ∑ u, |Kc u x| ≤ 6 * 2 ^ 30 := by revert x; decide

theorem sum_abs_Kc_mul_le (x y : Fin 8) : ∑ v, |Kc v y| * ∑ u, |Kc u x * Sc u v| ≤ 7 * 2 ^ 90 := by revert x y; decide

theorem sum_abs_idctWeight_le (x y : Fin 8) : ∑ p, |idctWeight x y p| ≤ 7 * 2 ^ 90 := by
  have h := sum_abs_Kc_mul_le x y
  simpa only [idctWeight, Finset.mul_sum, ← abs_mul, Fintype.sum_prod_type_right] using h

theorem sum_abs_columnGram_le (u y : Fin 8) : ∑ z, |columnGram u y z - if z = y then gain u else 0| ≤ 2 ^ 90 := by
  revert u y; decide

theorem sum_abs_gain_le (x : Fin 8) : ∑ u, |Kc u x * gain u| ≤ 3 * 2 ^ 149 := by revert x; decide

theorem sum_abs_rowGram_le (x : Fin 8) : ∑ z, |rowGram x z - if z = x then 2 ^ 180 else 0| ≤ 2 ^ 151 := by
  revert x; decide

/-! ### The passes (41_transform.md R113, R114) -/

/-- `A[u][y]`, the result of FDCT's first pass. -/
def fdctColumn (blk : Block) (u y : Fin 8) : Int := rnd (∑ x, Kc u x * sext32 blk[blockIndex x y]) 30

/-- `B[x][v]`, the result of IDCT's first pass. -/
def idctColumn (coef : Block) (x v : Fin 8) : Int := rnd (∑ u, Kc u x * Sc u v * sext32 coef[blockIndex u v]) 60

theorem fdctColumn_near (blk : Block) (u y : Fin 8) :
    |2 ^ 30 * fdctColumn blk u y - ∑ x, Kc u x * sext32 blk[blockIndex x y]| ≤ 2 ^ 29 :=
  abs_two_pow_mul_rnd_sub_le _ (by decide)

theorem fdctExact_near (blk : Block) (u v : Fin 8) :
    |2 ^ 60 * (fdctExact blk)[blockIndex u v] - Sc u v * ∑ y, Kc v y * fdctColumn blk u y| ≤ 2 ^ 59 := by
  rw [fdctExact_getElem]
  exact abs_two_pow_mul_rnd_sub_le _ (by decide)

theorem idctColumn_near (coef : Block) (x v : Fin 8) :
    |2 ^ 60 * idctColumn coef x v - ∑ u, Kc u x * Sc u v * sext32 coef[blockIndex u v]| ≤ 2 ^ 59 :=
  abs_two_pow_mul_rnd_sub_le _ (by decide)

/-- The sum of IDCT without roundings, in units of `2^-90`. -/
def idctSum (x y : Fin 8) (f : Fin 8 → Fin 8 → Int) : Int := ∑ p, idctWeight x y p * f p.1 p.2

theorem idctSum_eq (x y : Fin 8) (f : Fin 8 → Fin 8 → Int) :
    idctSum x y f = ∑ v, Kc v y * ∑ u, Kc u x * Sc u v * f u v := by
  simp only [idctSum, idctWeight, Fintype.sum_prod_type_right, Finset.mul_sum, mul_assoc]

/-- IDCT's two roundings together are at most `3 + 1/2` units. -/
theorem idctExact_near (coef : Block) (x y : Fin 8) :
    |2 ^ 90 * (idctExact coef)[blockIndex x y] - idctSum x y fun u v => sext32 coef[blockIndex u v]| ≤ 7 * 2 ^ 89 := by
  have hsecond : |2 ^ 30 * (idctExact coef)[blockIndex x y] - ∑ v, Kc v y * idctColumn coef x v| ≤ 2 ^ 29 := by
    rw [idctExact_getElem]
    exact abs_two_pow_mul_rnd_sub_le _ (by decide)
  have hfirst := abs_sum_mul_sub_le (fun v => Kc v y) (idctColumn_near coef x)
  have hweight := sum_abs_Kc_le y
  have hscale : ∑ v, Kc v y * (2 ^ 60 * idctColumn coef x v) = 2 ^ 60 * ∑ v, Kc v y * idctColumn coef x v := by
    rw [Finset.mul_sum]
    exact Finset.sum_congr rfl fun v _ => by ring
  rw [hscale] at hfirst
  rw [idctSum_eq]
  rw [abs_le] at hsecond hfirst ⊢
  constructor <;> linarith

/-! ### Nothing saturates (41_transform.md R107) -/

/-- A block of words at most 255 in magnitude, in Q15.16. -/
def InSampleRange (blk : Block) : Prop := ∀ k : Fin 64, |sext32 blk[k]| ≤ 255 * 2 ^ 16

theorem abs_fdctColumn_le {blk : Block} (h : InSampleRange blk) (u y : Fin 8) : |fdctColumn blk u y| ≤ 2 ^ 27 := by
  have hnear := fdctColumn_near blk u y
  have hsum := abs_sum_mul_le (fun x => Kc u x) (fun x => h (blockIndex x y))
  have hweight : ∑ x, |Kc u x| ≤ 8 * 2 ^ 30 := by
    simpa using Finset.sum_le_card_nsmul Finset.univ (fun x => |Kc u x|) (2 ^ 30) fun x _ => abs_Kc_le u x
  rw [abs_le] at hnear hsum ⊢
  omega

theorem abs_fdctExact_le {blk : Block} (h : InSampleRange blk) (k : Fin 64) : |(fdctExact blk)[k]| ≤ 2 ^ 28 + 1 := by
  rw [← blockIndex_rowOf_colOf k]
  have hnear := fdctExact_near blk (rowOf k) (colOf k)
  have hsum := abs_sum_mul_le (fun y => Kc (colOf k) y) (abs_fdctColumn_le h (rowOf k))
  have hweight : ∑ y, |Kc (colOf k) y| ≤ 8 * 2 ^ 30 := by
    simpa using Finset.sum_le_card_nsmul Finset.univ (fun y => |Kc (colOf k) y|) (2 ^ 30) fun y _ => abs_Kc_le (colOf k) y
  have hscaled : |Sc (rowOf k) (colOf k) * ∑ y, Kc (colOf k) y * fdctColumn blk (rowOf k) y| ≤ 2 ^ 28 * (8 * 2 ^ 30 * 2 ^ 27) := by
    rw [abs_mul]
    exact mul_le_mul (abs_Sc_le ..) (hsum.trans (by omega)) (abs_nonneg _) (by decide)
  rw [abs_le] at hnear hscaled ⊢
  omega

/-- Words within Q15.16 are kept by `sat32`. -/
theorem sat32_of_abs_le {z : Int} (h : |z| ≤ 2147483647) : sat32 z = z := by
  rw [abs_le] at h
  exact sat32_eq_self (by omega) (by omega)

theorem clips_eq_false_of_abs_le {r : IntBlock} (h : ∀ k : Fin 64, |r[k]| ≤ 2147483647) : clips r = false :=
  (clips_eq_false_iff r).mpr fun k => (sat32_of_abs_le (h k)).symm

theorem sext32_saturateBlock_of_abs_le {r : IntBlock} {k : Fin 64} (h : |r[k]| ≤ 2147483647) :
    sext32 (saturateBlock r)[k] = r[k] := by
  rw [saturateBlock_getElem, sat32_of_abs_le h]

theorem clips_fdctExact {blk : Block} (h : InSampleRange blk) : clips (fdctExact blk) = false :=
  clips_eq_false_of_abs_le fun k => (abs_fdctExact_le h k).trans (by decide)

theorem sext32_fdct {blk : Block} (h : InSampleRange blk) (k : Fin 64) :
    sext32 (saturateBlock (fdctExact blk))[k] = (fdctExact blk)[k] :=
  sext32_saturateBlock_of_abs_le ((abs_fdctExact_le h k).trans (by decide))

theorem abs_sext32_sampleWord_le (p : Byte) : |sext32 (sampleWord p)| ≤ 255 * 2 ^ 16 := by
  have := p.isLt
  rw [sext32_sampleWord, abs_le]
  omega

theorem inSampleRange_samples (p : Fin 64 → Byte) : InSampleRange (Vector.ofFn fun k => sampleWord (p k)) := fun k => by
  simpa using abs_sext32_sampleWord_le (p k)

/-- Settles O29: samples are at most 255 in magnitude. -/
theorem fdctOfSamplesNeverSaturates : Obligations.FdctOfSamplesNeverSaturates := fun p => clips_fdctExact (inSampleRange_samples p)

/-! ### The round trip (41_transform.md R115) -/

theorem idctSum_near (x y : Fin 8) {f g : Fin 8 → Fin 8 → Int} {C : Int} (hC : 0 ≤ C) (h : ∀ u v, |f u v - g u v| ≤ C) :
    |idctSum x y f - idctSum x y g| ≤ 7 * 2 ^ 90 * C :=
  (abs_sum_mul_sub_le (idctWeight x y) fun p => h p.1 p.2).trans
    (mul_le_mul_of_nonneg_right (sum_abs_idctWeight_le x y) hC)

/-- The sums over `v` of the second FDCT pass and of IDCT meet in `columnGram`. -/
theorem idctSum_fdct (x y : Fin 8) (a : Fin 8 → Fin 8 → Int) :
    idctSum x y (fun u v => Sc u v * ∑ z, Kc v z * a u z) = ∑ u, Kc u x * ∑ z, columnGram u y z * a u z := by
  rw [idctSum, Fintype.sum_prod_type]
  refine Finset.sum_congr rfl fun u _ => ?_
  simp only [idctWeight, columnGram, Finset.mul_sum, Finset.sum_mul]
  rw [Finset.sum_comm]
  exact Finset.sum_congr rfl fun z _ => Finset.sum_congr rfl fun v _ => by ring

/-- A sum with nearly diagonal weights is nearly its diagonal term. -/
theorem abs_sum_mul_sub_diagonal_le (w : Fin 8 → Int) (d : Fin 8) (g : Int) {E C : Int} (f : Fin 8 → Int)
    (hw : ∑ z, |w z - if z = d then g else 0| ≤ E) (hf : ∀ z, |f z| ≤ C) : |∑ z, w z * f z - g * f d| ≤ E * C := by
  have hdiag : g * f d = ∑ z, (if z = d then g else 0) * f z := by simp
  have hC : 0 ≤ C := (abs_nonneg _).trans (hf d)
  rw [hdiag, ← Finset.sum_sub_distrib]
  simp only [← sub_mul]
  exact (abs_sum_mul_le _ hf).trans (mul_le_mul_of_nonneg_right hw hC)

theorem sum_mul_two_pow_mul (w f : Fin 8 → Int) (n : Nat) : ∑ u, w u * (2 ^ n * f u) = 2 ^ n * ∑ u, w u * f u := by
  rw [Finset.mul_sum]
  exact Finset.sum_congr rfl fun u _ => by ring

/-- The rounding of FDCT's second pass, seen after IDCT: at most `3 + 1/2` units. -/
theorem idctSum_fdctExact_near (blk : Block) (x y : Fin 8) :
    |2 ^ 60 * idctSum x y (fun u v => (fdctExact blk)[blockIndex u v]) -
      ∑ u, Kc u x * ∑ z, columnGram u y z * fdctColumn blk u z| ≤ 7 * 2 ^ 149 := by
  have hnear := idctSum_near x y (by decide) (fdctExact_near blk)
  have hscale : idctSum x y (fun u v => 2 ^ 60 * (fdctExact blk)[blockIndex u v]) =
      2 ^ 60 * idctSum x y fun u v => (fdctExact blk)[blockIndex u v] := by
    simp only [idctSum, Finset.mul_sum]
    exact Finset.sum_congr rfl fun p _ => by ring
  rw [hscale, idctSum_fdct] at hnear
  exact hnear.trans (by decide)

/-- The columns of the tables are orthogonal up to their rounding, which is at most `3/4` units here. -/
theorem sum_columnGram_near {blk : Block} (h : InSampleRange blk) (x y : Fin 8) :
    |∑ u, Kc u x * ∑ z, columnGram u y z * fdctColumn blk u z - ∑ u, Kc u x * (gain u * fdctColumn blk u y)| ≤ 6 * 2 ^ 147 := by
  have hcolumn (u : Fin 8) : |∑ z, columnGram u y z * fdctColumn blk u z - gain u * fdctColumn blk u y| ≤ 2 ^ 90 * 2 ^ 27 :=
    abs_sum_mul_sub_diagonal_le _ y (gain u) _ (sum_abs_columnGram_le u y) (abs_fdctColumn_le h u)
  have hweight := sum_abs_Kc_le x
  exact (abs_sum_mul_sub_le (fun u => Kc u x) hcolumn).trans (by omega)

/-- The rounding of FDCT's first pass, seen after IDCT: at most `3/4` units. -/
theorem sum_fdctColumn_near (blk : Block) (x y : Fin 8) :
    |2 ^ 30 * ∑ u, Kc u x * (gain u * fdctColumn blk u y) - ∑ z, rowGram x z * sext32 blk[blockIndex z y]| ≤ 3 * 2 ^ 178 := by
  have hnear := abs_sum_mul_sub_le (fun u => Kc u x * gain u) fun u => fdctColumn_near blk u y
  have hgram : ∑ u, Kc u x * gain u * ∑ z, Kc u z * sext32 blk[blockIndex z y] = ∑ z, rowGram x z * sext32 blk[blockIndex z y] := by
    simp only [rowGram, Finset.mul_sum, Finset.sum_mul]
    rw [Finset.sum_comm]
    exact Finset.sum_congr rfl fun z _ => Finset.sum_congr rfl fun u _ => by ring
  have hweight := sum_abs_gain_le x
  rw [sum_mul_two_pow_mul, hgram] at hnear
  simp only [← mul_assoc] at hnear ⊢
  exact hnear.trans (by omega)

/-- The rows of the tables are orthogonal up to their rounding, which is at most `1/32` units here. -/
theorem sum_rowGram_near {blk : Block} (h : InSampleRange blk) (x y : Fin 8) :
    |∑ z, rowGram x z * sext32 blk[blockIndex z y] - 2 ^ 180 * sext32 blk[blockIndex x y]| ≤ 2 ^ 151 * (255 * 2 ^ 16) :=
  abs_sum_mul_sub_diagonal_le _ x (2 ^ 180) (fun z => sext32 blk[blockIndex z y]) (sum_abs_rowGram_le x)
    fun z => h (blockIndex z y)

/-- FDCT then IDCT returns each word within 8 units: the five errors together are less than 9 units. -/
theorem idct_fdct_near {blk : Block} (h : InSampleRange blk) (k : Fin 64) :
    |(idctExact (saturateBlock (fdctExact blk)))[k] - sext32 blk[k]| ≤ 8 := by
  rw [← blockIndex_rowOf_colOf k]
  generalize rowOf k = x, colOf k = y
  have hidct := idctExact_near (saturateBlock (fdctExact blk)) x y
  simp only [sext32_fdct h] at hidct
  have hfdct := idctSum_fdctExact_near blk x y
  have hcolumn := sum_columnGram_near h x y
  have hfirst := sum_fdctColumn_near blk x y
  have hrow := sum_rowGram_near h x y
  rw [abs_le] at hidct hfdct hcolumn hfirst hrow ⊢
  omega

/-- The words that come back are near the samples, so nothing saturates. -/
theorem abs_idct_fdct_le {blk : Block} (h : InSampleRange blk) (k : Fin 64) :
    |(idctExact (saturateBlock (fdctExact blk)))[k]| ≤ 255 * 2 ^ 16 + 8 := by
  have hnear := idct_fdct_near h k
  have hk := h k
  rw [abs_le] at hnear hk ⊢
  omega

theorem clips_idct_fdct {blk : Block} (h : InSampleRange blk) : clips (idctExact (saturateBlock (fdctExact blk))) = false :=
  clips_eq_false_of_abs_le fun k => (abs_idct_fdct_le h k).trans (by decide)

/-- The block that FDCT then IDCT return. -/
theorem roundTrip_near {blk : Block} (h : InSampleRange blk) (k : Fin 64) :
    |sext32 (saturateBlock (idctExact (saturateBlock (fdctExact blk))))[k] - sext32 blk[k]| ≤ 8 := by
  rw [sext32_saturateBlock_of_abs_le ((abs_idct_fdct_le h k).trans (by decide))]
  exact idct_fdct_near h k

theorem inSampleRange_loadedBlock (m : Memory) (W idx : Nat) : InSampleRange (loadedBlock m W idx) := fun k => by
  rw [loadedBlock_getElem]
  exact abs_sext32_sampleWord_le _

theorem fdctBody_sat_of_inRange {s : State} (h : InSampleRange s.blk) : (fdctBody s).status.sat = s.status.sat := by
  simp [clips_fdctExact h]

theorem idctBody_sat_of_noClip {s : State} (h : clips (idctExact s.coef) = false) : (idctBody s).status.sat = s.status.sat := by
  simp [h]

/-- The state after TILE_LOAD, FDCT and IDCT: its words convert back to the bytes loaded. -/
theorem tileStoreBody_of_roundTrip {s u : State} {idx : Nat} (hwf : s.img.wf) (hW : 8 ≤ s.width.toNat) (hwritten : s.entryWritten idx)
    (himg : u.img = s.img) (hwidth : u.width = s.width)
    (hblk : u.blk = saturateBlock (idctExact (saturateBlock (fdctExact (loadedBlock s.img s.width.toNat idx))))) :
    tileStoreBody idx u = u := by
  refine tileStoreBody_restores (himg ▸ hwf) (hwidth ▸ hW) fun k => ?_
  obtain ⟨p, hp⟩ := Option.isSome_iff_exists.mp (hwritten k)
  refine ⟨p, by rw [himg, hwidth, hp], toSample_of_near ?_⟩
  have hnear := roundTrip_near (inSampleRange_loadedBlock s.img s.width.toNat idx) k
  rw [sext32_loadedBlock hp] at hnear
  rw [hblk]
  exact hnear.trans_lt (by decide)

theorem execAll_cons {i : Instr} {s t : State} (rest : List Instr) (h : exec i s = .next t) :
    execAll (i :: rest) s = execAll rest t := by
  simp only [execAll, h]

theorem execAll_last {i : Instr} {s t : State} (h : exec i s = .next t) : execAll [i] s = .next t :=
  execAll_cons [] h

/-- Settles O30: `roundTrip_near`, and a word within 8 units of a sample converts to it. -/
theorem fdctThenIdctReturnsTheBlock : Obligations.FdctThenIdctReturnsTheBlock := by
  refine ⟨fun s h => ⟨_, _, exec_fdct s, exec_idct _, roundTrip_near h, fdctBody_sat_of_inRange h, ?_⟩,
    fun s idx hwf hgeo hidx hwritten => ?_⟩
  · exact (idctBody_sat_of_noClip (s := (fdctBody s).finished) (clips_idct_fdct h)).trans (fdctBody_sat_of_inRange h)
  · have hstore : tileStoreBody idx (idctBody (fdctBody
        (State.finished { s with blk := loadedBlock s.img s.width.toNat idx })).finished).finished = _ :=
      tileStoreBody_of_roundTrip hwf hgeo.2.1 hwritten rfl rfl rfl
    have hrun : execAll [.tileLoad idx, .fdct, .idct, .tileStore idx] s = .next (State.finished (tileStoreBody idx (idctBody
        (fdctBody (State.finished { s with blk := loadedBlock s.img s.width.toNat idx })).finished).finished)) := by
      rw [execAll_cons _ (exec_tileLoad_of_written hgeo hidx hwritten), execAll_cons _ (exec_fdct _),
        execAll_cons _ (exec_idct _)]
      exact execAll_last (exec_tileStore hgeo hidx)
    rw [hstore] at hrun
    exact ⟨_, hrun, rfl, rfl, rfl⟩

end Sys2Proof.Machine
end

section
/-! The entry steps of the Codec (45_codec.md R149, R155): nothing saturates in them, what each leaves, and the seven stage
commands that do the same as one ENCODE step. -/

namespace Sys2Proof.Machine

/-! ### Nothing saturates in the stego block (41_transform.md R107) -/

theorem abs_idctExact_le {coef : Block} {G : Int} (h : ∀ k : Fin 64, |sext32 coef[k]| ≤ G) (k : Fin 64) :
    |(idctExact coef)[k]| ≤ 7 * G + 4 := by
  rw [← blockIndex_rowOf_colOf k]
  generalize rowOf k = x, colOf k = y
  have hnear := idctExact_near coef x y
  have hG : 0 ≤ G := (abs_nonneg _).trans (h 0)
  have hsum : |idctSum x y fun u v => sext32 coef[blockIndex u v]| ≤ 7 * 2 ^ 90 * G :=
    (abs_sum_mul_le (idctWeight x y) fun p => h (blockIndex p.1 p.2)).trans
      (mul_le_mul_of_nonneg_right (sum_abs_idctWeight_le x y) hG)
  rw [abs_le] at hnear hsum ⊢
  omega

/-- The quantized block of a sample block with the bit `b` embedded (45_codec.md R149). -/
def embeddedBlock (p : Params) (blk : Block) (b : Bool) : Block :=
  (quantize p (saturateBlock (fdctExact blk))).set 0 (embedBit (quantize p (saturateBlock (fdctExact blk)))[0] b)

theorem stegoBlock_eq (p : Params) (blk : Block) (b : Bool) :
    stegoBlock p blk b = saturateBlock (idctExact (saturateBlock (dequantExact p (embeddedBlock p blk b)))) := rfl

theorem embeddedBlock_zero (p : Params) (blk : Block) (b : Bool) :
    (embeddedBlock p blk b)[(0 : Fin 64)] = embedBit (quantize p (saturateBlock (fdctExact blk)))[(0 : Fin 64)] b :=
  getElem_set_same _ 0 _

theorem embeddedBlock_of_ne_zero (p : Params) (blk : Block) (b : Bool) {k : Fin 64} (hk : k ≠ 0) :
    (embeddedBlock p blk b)[k] = (quantize p (saturateBlock (fdctExact blk)))[k] :=
  getElem_set_other _ (k := 0) _ hk

/-- The embedding moves a quantized word by at most 1. -/
theorem abs_embeddedBlock_le (p : Params) (blk : Block) (b : Bool) (k : Fin 64) :
    |sext32 (embeddedBlock p blk b)[k]| ≤ |rha (sext32 (saturateBlock (fdctExact blk))[k]) (divisor p k * 2 ^ 16)| + 1 := by
  rw [← sext32_quantize]
  by_cases hk : k = 0
  · subst hk
    have hclose := abs_sext32_embedBit_sub_le (quantize p (saturateBlock (fdctExact blk)))[(0 : Fin 64)] b
    rw [← embeddedBlock_zero] at hclose
    have htri := abs_add_le (sext32 (embeddedBlock p blk b)[(0 : Fin 64)] -
      sext32 (quantize p (saturateBlock (fdctExact blk)))[(0 : Fin 64)])
      (sext32 (quantize p (saturateBlock (fdctExact blk)))[(0 : Fin 64)])
    rw [sub_add_cancel] at htri
    linarith
  · rw [embeddedBlock_of_ne_zero p blk b hk]
    omega

/-- A dequantized word is within a step and a half of the coefficient, so far from the ends of Q15.16. -/
theorem abs_dequant_embedded_le {p : Params} {blk : Block} (h : InSampleRange blk) (b : Bool) (k : Fin 64) :
    |(dequantExact p (embeddedBlock p blk b))[k]| ≤ 293502977 := by
  have hcoef := abs_fdctExact_le h k
  have hembed := abs_embeddedBlock_le p blk b k
  have hquot := abs_rha_mul_le (sext32 (saturateBlock (fdctExact blk))[k]) (divisor p k * 2 ^ 16)
  have hd : divisor p k < 256 := (p.qtab[k]).isLt
  rw [sext32_fdct h] at hquot hembed
  rw [dequantExact_getElem, abs_mul, Nat.abs_cast]
  have hmul := mul_le_mul_of_nonneg_right hembed (Int.natCast_nonneg (divisor p k * 2 ^ 16))
  rw [add_mul, one_mul] at hmul
  omega

section
variable {p : Params} {blk : Block} (h : InSampleRange blk) (b : Bool)
include h

theorem clips_dequant_embedded : clips (dequantExact p (embeddedBlock p blk b)) = false :=
  clips_eq_false_of_abs_le fun k => (abs_dequant_embedded_le h b k).trans (by decide)

theorem sext32_dequant_embedded (k : Fin 64) :
    sext32 (saturateBlock (dequantExact p (embeddedBlock p blk b)))[k] = (dequantExact p (embeddedBlock p blk b))[k] :=
  sext32_saturateBlock_of_abs_le ((abs_dequant_embedded_le h b k).trans (by decide))

theorem clips_idct_embedded : clips (idctExact (saturateBlock (dequantExact p (embeddedBlock p blk b)))) = false := by
  refine clips_eq_false_of_abs_le fun k => (abs_idctExact_le (G := 293502977) (fun k => ?_) k).trans (by decide)
  rw [sext32_dequant_embedded h]
  exact abs_dequant_embedded_le h b k

end

/-! ### ENCODE's entry step (45_codec.md R149) -/

theorem exec_encode_of_written {s : State} {byte : Byte} (hloop : s.phase = .loop) (hm : s.msg.read (s.i / 8) = some byte)
    (h : s.entryWritten s.i) : exec .encode s = .next (advance (encodeStepBody byte s)) := by
  simp [exec, execEncode, hloop, encodeEntry_of_written hm h, encodeStepBody]

/-- The block of the current entry, as TILE_LOAD loads it. -/
abbrev State.entryBlock (s : State) : Block := loadedBlock s.img s.width.toNat s.i

theorem inSampleRange_entryBlock (s : State) : InSampleRange s.entryBlock := inSampleRange_loadedBlock _ _ _

theorem satEvent_false (s : State) : satEvent false s = s := by simp [satEvent]

theorem fdctBody_of_noClip {s : State} (h : clips (fdctExact s.blk) = false) :
    fdctBody s = { s with coef := saturateBlock (fdctExact s.blk) } := by
  simp only [fdctBody, h, satEvent_false]

theorem idctBody_of_noClip {s : State} (h : clips (idctExact s.coef) = false) :
    idctBody s = { s with blk := saturateBlock (idctExact s.coef) } := by
  simp only [idctBody, h, satEvent_false]

theorem dequantBody_of_noClip {s : State} (h : clips (dequantExact s.params s.qblk) = false) :
    dequantBody s = { s with coef := saturateBlock (dequantExact s.params s.qblk) } := by
  simp only [dequantBody, h, satEvent_false]

/-- The five bodies between the loading and the storing of an entry. -/
theorem stegoBody_eq (b : Bool) {s : State} (h : InSampleRange s.blk) :
    idctBody (dequantBody (embedBody b (quantBody (fdctBody s)))) = { s with
      qblk := embeddedBlock s.params s.blk b
      coef := saturateBlock (dequantExact s.params (embeddedBlock s.params s.blk b))
      blk := stegoBlock s.params s.blk b } := by
  have hquant : embedBody b (quantBody (fdctBody s)) =
      { s with coef := saturateBlock (fdctExact s.blk), qblk := embeddedBlock s.params s.blk b } := by
    rw [fdctBody_of_noClip (clips_fdctExact h)]
    rfl
  rw [hquant, dequantBody_of_noClip (clips_dequant_embedded h b), idctBody_of_noClip (clips_idct_embedded h b)]
  rfl

/-- What ENCODE's entry body leaves: STATUS is kept, since nothing saturates. -/
theorem encodeStepBody_eq (byte : Byte) (s : State) : encodeStepBody byte s = { s with
    qblk := embeddedBlock s.params s.entryBlock (payloadBitOf byte s.i)
    coef := saturateBlock (dequantExact s.params (embeddedBlock s.params s.entryBlock (payloadBitOf byte s.i)))
    blk := stegoBlock s.params s.entryBlock (payloadBitOf byte s.i)
    img := (encodeStepBody byte s).img
    clampCnt := (encodeStepBody byte s).clampCnt
    warnPending := (encodeStepBody byte s).warnPending } := by
  have hbody := stegoBody_eq (payloadBitOf byte s.i) (s := { s with blk := s.entryBlock }) (inSampleRange_entryBlock s)
  rw [encodeStepBody, encodeBlock, hbody, tileStoreBody_eq]

theorem encodeStepBody_blk (byte : Byte) (s : State) :
    (encodeStepBody byte s).blk = stegoBlock s.params s.entryBlock (payloadBitOf byte s.i) := by
  rw [encodeStepBody_eq]

theorem encodeStepBody_clampCnt (byte : Byte) (s : State) : (encodeStepBody byte s).clampCnt.toNat = min (s.clampCnt.toNat +
    (Finset.univ.filter fun k : Fin 64 => (toSample (encodeStepBody byte s).blk[k]).2 = true).card) (2 ^ 32 - 1) := by
  have hblk : (idctBody (dequantBody (embedBody (payloadBitOf byte s.i)
      (quantBody (fdctBody { s with blk := s.entryBlock }))))).blk = (encodeStepBody byte s).blk := by
    simp [encodeStepBody, encodeBlock]
  rw [← hblk]
  exact (tileStoreBody_clampCnt ..).trans (by simp)

theorem encodeStepBody_warnPending (byte : Byte) (s : State) : (encodeStepBody byte s).warnPending = true ↔
    s.warnPending = true ∨ ∃ k : Fin 64, (toSample (encodeStepBody byte s).blk[k]).2 = true := by
  have hblk : (idctBody (dequantBody (embedBody (payloadBitOf byte s.i)
      (quantBody (fdctBody { s with blk := s.entryBlock }))))).blk = (encodeStepBody byte s).blk := by
    simp [encodeStepBody, encodeBlock]
  rw [← hblk]
  exact (tileStoreBody_warnPending ..).trans (by simp)

/-- The storage of ENCODE's entry step: the entry takes the converted samples, every other byte keeps its value. -/
theorem read_encodeStepBody (byte : Byte) {s : State} (hW : 8 ≤ s.width.toNat) (k : Fin 64) :
    (encodeStepBody byte s).img.read (sampleAddr s.width.toNat s.i k) = some (toSample (encodeStepBody byte s).blk[k]).1 := by
  rw [encodeStepBody_img]
  exact read_storedSamples _ hW ..

theorem read_encodeStepBody_other (byte : Byte) (s : State) {a : Nat} (h : ∀ k : Fin 64, a ≠ sampleAddr s.width.toNat s.i k) :
    (encodeStepBody byte s).img.read a = s.img.read a := by
  rw [encodeStepBody_img]
  exact read_storedSamples_other _ _ h

/-- `advance` changes PROGRESS, `i`, the phase and, when it completes, the events. -/
theorem advance_eq (s : State) : advance s = { s with
    i := s.i + 1, progress := BitVec.ofNat 32 (s.i + 1), phase := (advance s).phase, intStatus := (advance s).intStatus } := by
  rcases advance_cases s with ⟨-, h⟩ | ⟨-, h⟩ <;> rw [h]
  rfl

theorem advance_last {s : State} (h : s.i + 1 = s.n) : (advance s).phase = .idle ∧
    (advance s).intStatus = { done := true, warn := s.intStatus.warn || s.warnPending, erri := s.intStatus.erri } := by
  rcases advance_cases s with ⟨-, h'⟩ | ⟨hn, -⟩
  · rw [h']
    exact ⟨rfl, by simp⟩
  · exact absurd h hn

theorem advance_notLast {s : State} (h : s.i + 1 ≠ s.n) : (advance s).phase = s.phase ∧ (advance s).intStatus = s.intStatus := by
  rcases advance_cases s with ⟨hn, -⟩ | ⟨-, h'⟩
  · exact absurd hn h
  · rw [h']
    exact ⟨rfl, rfl⟩

@[simp] theorem advance_img (s : State) : (advance s).img = s.img := (advance_memories s).1
@[simp] theorem advance_msg (s : State) : (advance s).msg = s.msg := (advance_memories s).2
@[simp] theorem advance_blk (s : State) : (advance s).blk = s.blk := by rw [advance_eq]
@[simp] theorem advance_coef (s : State) : (advance s).coef = s.coef := by rw [advance_eq]
@[simp] theorem advance_qblk (s : State) : (advance s).qblk = s.qblk := by rw [advance_eq]
@[simp] theorem advance_clampCnt (s : State) : (advance s).clampCnt = s.clampCnt := by rw [advance_eq]
@[simp] theorem advance_warnPending (s : State) : (advance s).warnPending = s.warnPending := by rw [advance_eq]
@[simp] theorem advance_status (s : State) : (advance s).status = s.status := by rw [advance_eq]
@[simp] theorem advance_acc (s : State) : (advance s).acc = s.acc := by rw [advance_eq]

/-- Settles O46: the body `encodeStepBody`, then `advance`. -/
theorem encodeEmbedsOneEntryPerStep : Obligations.EncodeEmbedsOneEntryPerStep := by
  intro s byte hloop hW hm hwritten
  have hq : (encodeStepBody byte s).qblk = embeddedBlock s.params s.entryBlock (byte.getLsbD (7 - s.i % 8)) := by
    rw [encodeStepBody_eq, payloadBitOf_eq_getLsbD]
  have hcoef : (encodeStepBody byte s).coef = saturateBlock (dequantExact s.params (encodeStepBody byte s).qblk) := by
    rw [encodeStepBody_eq]
  have hblk : (encodeStepBody byte s).blk = saturateBlock (idctExact (encodeStepBody byte s).coef) := by
    rw [encodeStepBody_eq]
    rfl
  have hframe := encodeStepBody_frame byte s
  refine ⟨_, exec_encode_of_written hloop hm hwritten, ⟨?_, ?_, ?_, ?_⟩, fun k => ?_, fun a ha => ?_, ?_, ?_, fun hlast => ?_,
    fun hmore => ?_, ?_⟩
  · rw [advance_qblk, hq]
    rfl
  · rw [advance_coef, advance_qblk, hcoef]
  · rw [advance_blk, advance_coef, hblk]
  · rw [advance_blk, encodeStepBody_blk, payloadBitOf_eq_getLsbD]
  · rw [advance_img, advance_blk, read_encodeStepBody byte hW]
  · rw [advance_img, read_encodeStepBody_other byte s ha]
  · rw [advance_clampCnt, advance_blk, encodeStepBody_clampCnt]
  · rw [advance_warnPending, advance_blk, encodeStepBody_warnPending]
  · rw [advance_warnPending, ← hframe.intStatus]
    exact advance_last (by simpa using hlast)
  · have hphase := advance_notLast (s := encodeStepBody byte s) (by simpa using hmore)
    exact ⟨hphase.1.trans ((encodeStepBody_phase byte s).trans hloop), hphase.2.trans hframe.intStatus⟩
  · rw [advance_eq]
    simp only
    rw [encodeStepBody_eq]

/-! ### DECODE's entry step (45_codec.md R155) -/

theorem exec_decode_of_written {s : State} (hloop : s.phase = .loop) (h : s.entryWritten s.i) :
    exec .decode s = .next (advance (decodeStepBody s)) := by
  simp [exec, execDecode, hloop, decodeEntry_of_written h, decodeStepBody]

/-- Settles O48: the body `decodeStepBody`, then `advance`. -/
theorem decodeExtractsOneEntryPerStep : Obligations.DecodeExtractsOneEntryPerStep := by
  intro s hloop hwritten
  have hframe := decodeStepBody_frame s
  have hsat := clips_fdctExact (inSampleRange_entryBlock s)
  refine ⟨_, exec_decode_of_written hloop hwritten, ⟨?_, fun hdue => ⟨?_, ?_, fun j hj => ?_⟩, fun hdue => ⟨?_, ?_⟩⟩, ?_, ?_, ?_,
    fun hlast => ?_, fun hmore => ?_, ?_⟩
  · rw [advance_status, decodeStepBody_eq]
  · rw [advance_msg, decodeStepBody_msg, if_pos hdue]
    exact Memory.read_write_self ..
  · rw [advance_acc, decodeStepBody_acc, if_pos hdue]
  · rw [advance_msg, decodeStepBody_msg, if_pos hdue, Memory.read_write_of_ne _ _ hj]
  · rw [advance_acc, decodeStepBody_acc, if_neg hdue]
    rfl
  · rw [advance_msg, decodeStepBody_msg, if_neg hdue]
  · rw [advance_blk, decodeStepBody_eq]
  · rw [advance_coef, advance_blk, decodeStepBody_eq]
  · rw [advance_qblk, advance_coef, decodeStepBody_eq]
  · rw [← hframe.intStatus, ← decodeStepBody_warnPending]
    exact advance_last (by simpa using hlast)
  · have hphase := advance_notLast (s := decodeStepBody s) (by simpa using hmore)
    exact ⟨hphase.1.trans ((decodeStepBody_phase s).trans hloop), hphase.2.trans hframe.intStatus⟩
  · rw [advance_eq]
    simp only
    rw [decodeStepBody_eq]
    simp [hsat]

/-! ### The stage commands (70_reset_and_hazards.md R189) -/

/-- Settles O49: each stage command runs one of the bodies of `encodeStepBody`, and completes. -/
theorem theStageCommandsEqualOneEncodeStep : Obligations.TheStageCommandsEqualOneEncodeStep := by
  intro s byte hloop hgeo hidx hm hwritten
  have hrun : execAll [.tileLoad s.i, .fdct, .quant, .embed (payloadBitOf byte s.i), .dequant, .idct, .tileStore s.i] s =
      .next (tileStoreBody s.i (idctBody (dequantBody (embedBody (payloadBitOf byte s.i) (quantBody (fdctBody
        (State.finished { s with blk := s.entryBlock })).finished).finished).finished).finished).finished).finished := by
    rw [execAll_cons _ (exec_tileLoad_of_written hgeo hidx hwritten), execAll_cons _ (exec_fdct _),
      execAll_cons _ (exec_quant _), execAll_cons _ (exec_embed _ _), execAll_cons _ (exec_dequant _),
      execAll_cons _ (exec_idct _)]
    exact execAll_last (exec_tileStore hgeo hidx)
  refine ⟨_, _, exec_encode_of_written hloop hm hwritten, hrun, ?_, ?_, ?_, ?_, ?_, ?_, ?_⟩
  · simp [encodeStepBody, encodeBlock]
  · simp [encodeStepBody, encodeBlock]
  · simp [encodeStepBody, encodeBlock]
  · simp [encodeStepBody, encodeBlock]
  · refine BitVec.eq_of_toNat_eq ?_
    rw [advance_clampCnt]
    simp only [encodeStepBody, encodeBlock]
    rw [tileStoreBody_clampCnt, tileStoreBody_clampCnt]
    simp
  · simp [encodeStepBody, encodeBlock]
  · simp [encodeStepBody, encodeBlock]

end Sys2Proof.Machine
end

section
/-! Decode of encode for one block (45_codec.md R157): the DC coefficient of the stored samples is within half a step of the
multiple of the divisor that was embedded, because the roundings of the samples move it by at most 4 and those of IDCT by next to
nothing. -/

namespace Sys2Proof.Machine

/-! ### The DC coefficient of what IDCT returns -/

/-- Every row of `Kc` but the first adds up to 0. -/
theorem sum_Kc_row (v : Fin 8) : ∑ y, Kc v y = if v = 0 then 2 ^ 33 else 0 := by revert v; decide

theorem abs_sum_le_eight_mul {f : Fin 8 → Int} {C : Int} (hf : ∀ x, |f x| ≤ C) : |∑ x, f x| ≤ 8 * C := by
  simpa using abs_sum_mul_le (fun _ => 1) hf

/-- The sum over a row of what IDCT returns is 8 times its DC word, up to the second rounding. -/
theorem sum_idctExact_row_near (coef : Block) (x : Fin 8) :
    |∑ y, (idctExact coef)[blockIndex x y] - 8 * idctColumn coef x 0| ≤ 4 := by
  have hword (y : Fin 8) : |2 ^ 30 * (idctExact coef)[blockIndex x y] - ∑ v, Kc v y * idctColumn coef x v| ≤ 2 ^ 29 := by
    rw [idctExact_getElem]
    exact abs_two_pow_mul_rnd_sub_le _ (by decide)
  have hrow : ∑ y, ∑ v, Kc v y * idctColumn coef x v = 2 ^ 33 * idctColumn coef x 0 := by
    rw [Finset.sum_comm]
    simp [← Finset.sum_mul, sum_Kc_row]
  have hsum := abs_sum_le_eight_mul hword
  rw [Finset.sum_sub_distrib, ← Finset.mul_sum, hrow] at hsum
  rw [abs_le] at hsum ⊢
  omega

/-- The sum of the DC words of the rows is the DC coefficient, up to the first rounding. -/
theorem sum_idctColumn_near (coef : Block) : |∑ x, idctColumn coef x 0 - sext32 coef[(0 : Fin 64)]| ≤ 4 := by
  have hcolumn : ∑ x, ∑ u, Kc u x * Sc u 0 * sext32 coef[blockIndex u 0] = 2 ^ 60 * sext32 coef[(0 : Fin 64)] := by
    rw [Finset.sum_comm, show coef[(0 : Fin 64)] = coef[blockIndex 0 0] from rfl]
    simp [← Finset.sum_mul, sum_Kc_row, Sc_zero_zero]
  have hsum := abs_sum_le_eight_mul fun x => idctColumn_near coef x 0
  rw [Finset.sum_sub_distrib, ← Finset.mul_sum, hcolumn] at hsum
  rw [abs_le] at hsum ⊢
  omega

/-- IDCT keeps the sum of the block: 8 times the DC coefficient, up to 64 units. -/
theorem sum_idctExact_near (coef : Block) : |∑ k : Fin 64, (idctExact coef)[k] - 8 * sext32 coef[(0 : Fin 64)]| ≤ 64 := by
  have hrows := abs_sum_le_eight_mul (sum_idctExact_row_near coef)
  have hcolumn := sum_idctColumn_near coef
  rw [Finset.sum_sub_distrib, ← Finset.mul_sum, Finset.sum_comm] at hrows
  rw [sum_block fun k => (idctExact coef)[k]]
  rw [abs_le] at hrows hcolumn ⊢
  omega

/-! ### The stored samples (43_tiler.md R131) -/

/-- An unclamped sample is within half a step of its word. -/
theorem toSample_near {v : Word} (h : (toSample v).2 = false) : |((toSample v).1.toNat : Int) * 2 ^ 16 - sext32 v| ≤ 2 ^ 15 := by
  obtain ⟨hlow, hmid, hhigh⟩ := samplesRoundThenClamp v
  have hlo : -32768 < v.toInt := by
    by_contra hle
    rw [hlow (by omega)] at h
    cases h
  have hhi : v.toInt < 255 * 65536 + 32768 := by
    by_contra hge
    rw [hhigh (by omega)] at h
    cases h
  obtain ⟨-, hval⟩ := hmid hlo hhi
  rw [sext32, abs_le, hval]
  omega

/-- The block of the samples that are stored for a block. -/
def storedBlock (blk : Block) : Block := Vector.ofFn fun k : Fin 64 => sampleWord (toSample blk[k]).1

/-- The DC coefficient of unclamped samples is within 4 of an eighth of the sum of the words that they were converted from. -/
theorem fdct_storedBlock_near {blk : Block} (h : ∀ k : Fin 64, (toSample blk[k]).2 = false) :
    |8 * sext32 (saturateBlock (fdctExact (storedBlock blk)))[(0 : Fin 64)] - ∑ k : Fin 64, sext32 blk[k]| ≤ 2 ^ 21 := by
  have hdc : sext32 (saturateBlock (fdctExact (storedBlock blk)))[(0 : Fin 64)] =
      (∑ k : Fin 64, ((toSample blk[k]).1.toNat : Int)) * 2 ^ 13 := saturateBlock_fdctExact_samples_zero _
  have hscale : 8 * ((∑ k : Fin 64, ((toSample blk[k]).1.toNat : Int)) * 2 ^ 13) =
      ∑ k : Fin 64, ((toSample blk[k]).1.toNat : Int) * 2 ^ 16 := by
    rw [← Finset.sum_mul]
    ring
  have hsum : |∑ k : Fin 64, 1 * (((toSample blk[k]).1.toNat : Int) * 2 ^ 16 - sext32 blk[k])| ≤ _ :=
    abs_sum_mul_le (fun _ => 1) fun k => toSample_near (h k)
  simp only [one_mul, Finset.sum_sub_distrib] at hsum
  rw [hdc, hscale]
  exact hsum.trans (by simp)

/-! ### The embedded bit (45_codec.md R157) -/

/-- A value less than half a step from a multiple rounds to it. -/
theorem rha_of_near {a q : Int} {b : Nat} (h : 2 * |a - q * b| < b) : rha a b = q := by
  have hb : 0 < b := by have := abs_nonneg (a - q * b); omega
  obtain ⟨hnear, -⟩ := rha_nearest a hb
  have hstep : |(rha a b - q) * b| < 1 * b := by
    have htri := abs_sub_le (rha a b * b) a (q * b)
    rw [abs_sub_comm (rha a b * b) a, ← sub_mul] at htri
    linarith
  rw [abs_mul, Nat.abs_cast] at hstep
  have hlt := abs_lt.mp (lt_of_mul_lt_mul_right hstep (Int.natCast_nonneg b))
  omega

/-- The quantized DC coefficient of the stored samples is the one that was embedded. -/
theorem quantize_storedBlock_zero {p : Params} {blk : Block} {b : Bool} (h : InSampleRange blk) (hd : 9 ≤ divisor p 0)
    (hclamp : ∀ k : Fin 64, (toSample (stegoBlock p blk b)[k]).2 = false) :
    (quantize p (saturateBlock (fdctExact (storedBlock (stegoBlock p blk b)))))[(0 : Fin 64)] =
      (embeddedBlock p blk b)[(0 : Fin 64)] := by
  have hstored := fdct_storedBlock_near hclamp
  have hidct := sum_idctExact_near (saturateBlock (dequantExact p (embeddedBlock p blk b)))
  have hword (k : Fin 64) : sext32 (stegoBlock p blk b)[k] =
      (idctExact (saturateBlock (dequantExact p (embeddedBlock p blk b))))[k] := by
    rw [stegoBlock_eq, saturateBlock_getElem]
    exact ((clips_eq_false_iff _).mp (clips_idct_embedded h b) k).symm
  rw [sext32_dequant_embedded h, dequantExact_getElem] at hidct
  simp only [hword] at hstored
  refine BitVec.toInt_inj.mp ((sext32_quantize ..).trans (rha_of_near ?_))
  rw [abs_le] at hstored hidct
  have hnear : |sext32 (saturateBlock (fdctExact (storedBlock (stegoBlock p blk b))))[(0 : Fin 64)] -
      sext32 (embeddedBlock p blk b)[(0 : Fin 64)] * (divisor p 0 * 2 ^ 16 : Nat)| ≤ 2 ^ 18 + 8 := by
    rw [abs_le]
    omega
  change 2 * |_ - sext32 (embeddedBlock p blk b)[(0 : Fin 64)] * (divisor p 0 * 2 ^ 16 : Nat)| < _
  omega

theorem stegoBlock_keeps_bit {p : Params} {blk : Block} {b : Bool} (h : InSampleRange blk) (hd : 9 ≤ divisor p 0)
    (hclamp : ∀ k : Fin 64, (toSample (stegoBlock p blk b)[k]).2 = false) :
    extractBit (quantize p (saturateBlock (fdctExact (storedBlock (stegoBlock p blk b)))))[(0 : Fin 64)] = b := by
  rw [quantize_storedBlock_zero h hd hclamp, embeddedBlock_zero, extractBit_embedBit]

/-- Settles O52: samples are in range. -/
theorem anUnclampedBlockKeepsItsBit : Obligations.AnUnclampedBlockKeepsItsBit := fun _ x _ hd hclamp =>
  stegoBlock_keeps_bit (inSampleRange_samples x) hd hclamp

end Sys2Proof.Machine
end

section
/-! The runs of ENCODE and DECODE with no turn fixed (log 6): the CHECK step and one step per entry (45_codec.md R149, R155). What a
run has done before entry `i` is an invariant of the loop for each of the two commands, over the one that they share. -/

namespace Sys2Proof.Machine

/-! ### The loop that the two commands share -/

/-- The running command of `s₀` before entry `i` of its `n` entries, and completed when `i = n`. -/
structure AtEntry (s₀ : State) (n i : Nat) (s : State) : Prop where
  params : s.params = s₀.params
  width : s.width = s₀.width
  height : s.height = s₀.height
  latched : s.latched = s₀.latched
  rstN : s.rstN = s₀.rstN
  schedule : s.schedule = s₀.schedule
  err : s.status.err = s₀.status.err
  progress : s.progress = BitVec.ofNat 32 i
  running : i < n → s.phase = .loop ∧ s.n = n ∧ s.i = i
  completed : i = n → s.phase = .idle ∧ s.intStatus.done = true

/-- The initialisation leads to the first entry, after a change of what the loop's invariant does not see. -/
theorem BodyFrame.atEntry_startLoop {s u : State} (h : BodyFrame s u) (n : Nat) : AtEntry s n 0 (Machine.startLoop n u) := by
  rcases Nat.eq_zero_or_pos n with rfl | hn
  · rw [startLoop_zero]
    exact ⟨h.params, h.width, h.height, h.latched, h.rstN, h.schedule, h.err, rfl, nofun, fun _ => ⟨rfl, rfl⟩⟩
  · rw [startLoop_of_ne_zero hn.ne']
    exact ⟨h.params, h.width, h.height, h.latched, h.rstN, h.schedule, h.err, rfl, fun _ => ⟨rfl, rfl, rfl⟩, fun h0 => by omega⟩

/-- Each entry leads to the next. -/
theorem AtEntry.next {s₀ s u : State} {n i : Nat} (h : AtEntry s₀ n i s) (hi : i < n) (hu : BodyFrame s u)
    (hphase : u.phase = s.phase) (hn : u.n = s.n) (hentry : u.i = s.i) : AtEntry s₀ n (i + 1) (advance u) := by
  obtain ⟨hloop, hsn, hsi⟩ := h.running hi
  refine ⟨?params, ?width, ?height, ?latched, ?rstN, ?schedule, ?err, ?progress, fun hmore => ?running, fun hlast => ?completed⟩
  case running =>
    obtain ⟨hgoesOn, -⟩ := advance_notLast (s := u) (by omega)
    rw [advance_eq]
    exact ⟨hgoesOn.trans (hphase.trans hloop), hn.trans hsn, congrArg (· + 1) (hentry.trans hsi)⟩
  case completed =>
    obtain ⟨hidle, hevents⟩ := advance_last (s := u) (by omega)
    exact ⟨hidle, by rw [hevents]⟩
  case progress => rw [advance_eq, hentry, hsi]
  all_goals rw [advance_eq]
  · exact hu.params.trans h.params
  · exact hu.width.trans h.width
  · exact hu.height.trans h.height
  · exact hu.latched.trans h.latched
  · exact hu.rstN.trans h.rstN
  · exact hu.schedule.trans h.schedule
  · exact hu.err.trans h.err

section
variable {c : Instr} {s₀ : State} {n : Nat} {P : Nat → State → Prop} (hrst : s₀.rstN = true) (hturns : s₀.schedule = [])
  (hlatched : decode s₀.latched = .ok c)
include hrst hturns hlatched

/-- With no turn fixed, a step is the step of the running command. -/
theorem step_of_running {s : State} (hr : s.rstN = s₀.rstN) (ht : s.schedule = s₀.schedule) (hl : s.latched = s₀.latched)
    (hbusy : s.phase ≠ .idle) : step s = exec c s := by
  have hb : s.busy = true := (busy_iff s).2 hbusy
  rw [step_of_defaultEngine (hr.trans hrst) (ht.trans hturns) hb, engineStep_of_legal hb (hl ▸ hlatched)]

/-- An invariant of the entries holds when the run has made the steps of all of them. -/
theorem run_entries (hentry : ∀ i s, i < n → AtEntry s₀ n i s → P i s →
      ∃ t, exec c s = .next t ∧ AtEntry s₀ n (i + 1) t ∧ P (i + 1) t) (k : Nat) :
    ∀ i s, i + k = n → AtEntry s₀ n i s → P i s →
      ∃ t, Host.Core.run Sys2Proof.core k s = .next t ∧ AtEntry s₀ n n t ∧ P n t := by
  induction k with
  | zero =>
    rintro i s rfl hat hP
    exact ⟨s, rfl, hat, hP⟩
  | succ k ih =>
    intro i s hik hat hP
    obtain ⟨t, hexec, hat', hP'⟩ := hentry i s (by omega) hat hP
    have hstep : step s = .next t := by
      rw [step_of_running hrst hturns hlatched hat.rstN hat.schedule hat.latched (by simp [(hat.running (by omega)).1]), hexec]
    rw [run_of_step k hstep]
    exact ih (i + 1) t (by omega) hat' hP'

end

end Sys2Proof.Machine
end

section
/-! The run of ENCODE (45_codec.md section 1). -/

namespace Sys2Proof.Machine

/-! ### What a run of ENCODE has done before entry `i` -/

/-- Payload bit `i` of the message, 0 where no byte is written (44_bitstream.md R135). -/
def State.payload (s : State) (i : Nat) : Bool := payloadBitOf ((s.msg.read (i / 8)).getD 0#8) i

/-- The block that ENCODE makes of entry `i`, before it is converted to samples (45_codec.md R149). -/
def State.stegoEntry (s : State) (i : Nat) : Block := stegoBlock s.params (loadedBlock s.img s.width.toNat i) (s.payload i)

/-- The entries before `i` take the samples of their stego blocks, and every other byte keeps its value; as long as nothing is
counted in CLAMP_CNT, no sample of them was clamped. -/
structure Encoded (s₀ : State) (i : Nat) (s : State) : Prop where
  msg : s.msg = s₀.msg
  stored : ∀ j < i, ∀ k : Fin 64,
    s.img.read (sampleAddr s₀.width.toNat j k) = some (toSample (s₀.stegoEntry j)[k]).1
  kept : ∀ a, (∀ j < i, a ∉ entryAddrs s₀.width.toNat j) → s.img.read a = s₀.img.read a
  unclamped : s.clampCnt.toNat = 0 → ∀ j < i, ∀ k : Fin 64, (toSample (s₀.stegoEntry j)[k]).2 = false

theorem sampleAddr_ne {W i j : Nat} (hW : 8 ≤ W) (hij : i ≠ j) (k l : Fin 64) : sampleAddr W i k ≠ sampleAddr W j l :=
  fun h => hij (sampleAddr_inj hW k.isLt l.isLt h).1

theorem sampleAddr_notMem_entryAddrs {W i j : Nat} (hW : 8 ≤ W) (hij : i ≠ j) (k : Fin 64) :
    sampleAddr W i k ∉ entryAddrs W j := fun h => by
  obtain ⟨l, hl⟩ := mem_entryAddrs.mp h
  exact sampleAddr_ne hW hij k l hl

theorem loadedBlock_congr {m m' : Memory} {W i : Nat}
    (h : ∀ k : Fin 64, m.read (sampleAddr W i k) = m'.read (sampleAddr W i k)) : loadedBlock m W i = loadedBlock m' W i := by
  simp only [loadedBlock, h]

theorem Encoded.start (s : State) (n : Nat) : Encoded s 0 (startLoop n { s with clampCnt := 0#32 }) := by
  obtain ⟨himg, hmsg⟩ := startLoop_memories n { s with clampCnt := 0#32 }
  exact ⟨hmsg, nofun, fun a _ => by rw [himg], fun _ => nofun⟩

section
variable {s₀ s : State} {n i : Nat} (hW : 8 ≤ s₀.width.toNat)
include hW

/-- The bytes of the entries from `i` on are the ones at the start. -/
theorem Encoded.read_entry (h : Encoded s₀ i s) (k : Fin 64) :
    s.img.read (sampleAddr s₀.width.toNat i k) = s₀.img.read (sampleAddr s₀.width.toNat i k) :=
  h.kept _ fun _ hj => sampleAddr_notMem_entryAddrs hW hj.ne' k

theorem Encoded.loadedBlock_eq (h : Encoded s₀ i s) :
    loadedBlock s.img s₀.width.toNat i = loadedBlock s₀.img s₀.width.toNat i :=
  loadedBlock_congr (h.read_entry hW)

/-- ENCODE's body for entry `i` makes the stego block of the entry at the start. -/
theorem Encoded.encodeStepBody_blk {byte : Byte} (h : Encoded s₀ i s) (hi : i < n) (hat : AtEntry s₀ n i s)
    (hbyte : s₀.msg.read (i / 8) = some byte) : (encodeStepBody byte s).blk = s₀.stegoEntry i := by
  obtain ⟨-, -, hsi⟩ := hat.running hi
  rw [Machine.encodeStepBody_blk, State.stegoEntry, State.payload, hbyte, Option.getD_some, State.entryBlock, hat.params, hat.width, hsi,
    h.loadedBlock_eq hW]

/-- ENCODE's body for entry `i` adds entry `i`. -/
theorem Encoded.encodeStepBody {byte : Byte} (h : Encoded s₀ i s) (hi : i < n) (hat : AtEntry s₀ n i s)
    (hbyte : s₀.msg.read (i / 8) = some byte) : Encoded s₀ (i + 1) (encodeStepBody byte s) := by
  obtain ⟨-, -, hsi⟩ := hat.running hi
  have hblk := h.encodeStepBody_blk hW hi hat hbyte
  have hother {a : Nat} (ha : a ∉ entryAddrs s₀.width.toNat i) : (Machine.encodeStepBody byte s).img.read a = s.img.read a := by
    refine read_encodeStepBody_other byte s fun k hk => ha (mem_entryAddrs.mpr ⟨k, ?_⟩)
    rw [hk, hat.width, hsi]
  refine ⟨(encodeStepBody_msg byte s).trans h.msg, fun j hj k => ?stored, fun a ha => ?kept, fun hcount j hj k => ?unclamped⟩
  case stored =>
    rcases Nat.lt_succ_iff_lt_or_eq.mp hj with hlt | rfl
    · rw [hother (sampleAddr_notMem_entryAddrs hW hlt.ne k)]
      exact h.stored j hlt k
    · rw [← hblk, ← hat.width, ← hsi]
      exact read_encodeStepBody byte (hat.width ▸ hW) k
  case kept =>
    rw [hother (ha i (Nat.lt_succ_self i))]
    exact h.kept a fun j hj => ha j (hj.trans (Nat.lt_succ_self i))
  case unclamped =>
    rw [encodeStepBody_clampCnt, hblk] at hcount
    obtain ⟨hbefore, hentry⟩ : s.clampCnt.toNat = 0 ∧
        (Finset.univ.filter fun k : Fin 64 => (toSample (s₀.stegoEntry i)[k]).2 = true).card = 0 := by omega
    rcases Nat.lt_succ_iff_lt_or_eq.mp hj with hlt | rfl
    · exact h.unclamped hbefore j hlt k
    · rw [Finset.card_eq_zero, Finset.filter_eq_empty_iff] at hentry
      exact Bool.eq_false_iff.mpr (hentry (Finset.mem_univ k))

theorem Encoded.entryWritten (h : Encoded s₀ i s) (hwidth : s.width = s₀.width) (hwritten : s₀.entryWritten i) :
    s.entryWritten i := fun k => by
  rw [hwidth, h.read_entry hW]
  exact hwritten k

end

theorem Encoded.advance {s₀ s : State} {i : Nat} (h : Encoded s₀ i s) : Encoded s₀ i (advance s) := by
  refine ⟨?_, ?_, ?_, ?_⟩
  · rw [advance_msg]; exact h.msg
  · rw [advance_img]; exact h.stored
  · rw [advance_img]; exact h.kept
  · rw [advance_clampCnt]; exact h.unclamped

/-! ### The run -/

/-- ENCODE's step for entry `i` keeps the invariant. -/
theorem exec_encode_entry {s₀ s : State} {n i : Nat} (hW : 8 ≤ s₀.width.toNat) (hmsg : (s₀.msg.read (i / 8)).isSome = true)
    (hwritten : s₀.entryWritten i) (hi : i < n) (hat : AtEntry s₀ n i s) (h : Encoded s₀ i s) :
    ∃ t, exec .encode s = .next t ∧ AtEntry s₀ n (i + 1) t ∧ Encoded s₀ (i + 1) t := by
  obtain ⟨byte, hbyte⟩ := Option.isSome_iff_exists.mp hmsg
  obtain ⟨hloop, -, hsi⟩ := hat.running hi
  have hread : s.msg.read (s.i / 8) = some byte := by rw [h.msg, hsi, hbyte]
  have hentry : s.entryWritten s.i := hsi ▸ h.entryWritten hW hat.width hwritten
  exact ⟨_, exec_encode_of_written hloop hread hentry,
    hat.next hi (encodeStepBody_frame byte s) (encodeStepBody_phase ..) (encodeStepBody_n ..) (encodeStepBody_i ..),
    (h.encodeStepBody hW hi hat hbyte).advance⟩

/-- An accepted ENCODE that passes its checks and reads only written bytes processes its `8L` entries. -/
theorem run_encode {s : State} (hacc : s.accepted .encode) (hcheck : encodeCheck s = .noError)
    (hmsg : s.messageWritten s.encLen.toNat) (hwritten : s.entriesWritten (8 * s.encLen.toNat)) :
    ∃ t, Host.Core.run Sys2Proof.core (1 + 8 * s.encLen.toNat) s = .next t ∧
      AtEntry s (8 * s.encLen.toNat) (8 * s.encLen.toNat) t ∧ Encoded s (8 * s.encLen.toNat) t := by
  obtain ⟨hrst, hturns, hphase, hlatched⟩ := hacc
  obtain ⟨hgeo, -⟩ := encodeCheck_ok hcheck
  have hstart : step s = .next (startLoop (8 * s.encLen.toNat) { s with clampCnt := 0#32 }) := by
    rw [step_of_running hrst hturns hlatched rfl rfl rfl (by simp [hphase]), exec_encode_of_check hphase,
      encodeStart_of_noError hcheck]
  have hframe : BodyFrame s { s with clampCnt := 0#32 } := by constructor <;> rfl
  rw [Nat.add_comm, run_of_step _ hstart]
  exact run_entries hrst hturns hlatched
    (fun i u hi => exec_encode_entry hgeo.2.1 (hmsg _ (by omega)) (hwritten i hi) hi) _ 0 _ (Nat.zero_add _)
    (hframe.atEntry_startLoop _) (Encoded.start s _)

/-- A running command has no error recorded (10_state.md R29). -/
theorem State.Inv.err_of_accepted {s : State} {c : Instr} (hs : s.Inv) (hacc : s.accepted c) : s.status.err = false :=
  hs.2.2.1.2 ((busy_iff s).2 (by simp [hacc.2.2.1]))

/-- The number of entries fits PROGRESS (10_state.md R44). -/
theorem AtEntry.progress_toNat {s₀ s u : State} {n i : Nat} (h : AtEntry s₀ n i s) (hi : i ≤ u.capacity) : s.progress.toNat = i := by
  have hcap := capacity_le u
  rw [h.progress, BitVec.toNat_ofNat, Nat.mod_eq_of_lt (by omega)]

/-- Settles O50: the invariant of the run after its last entry. -/
theorem encodeCompletesInOnePlusNSteps : Obligations.EncodeCompletesInOnePlusNSteps := by
  intro s hs hacc hcheck hmsg hwritten
  obtain ⟨t, hrun, hat, henc⟩ := run_encode hacc hcheck hmsg hwritten
  obtain ⟨hidle, hdone⟩ := hat.completed rfl
  exact ⟨t, hrun, hidle, hat.err.trans (hs.err_of_accepted hacc), hdone, hat.progress_toNat (encodeCheck_ok hcheck).2, henc.msg,
    henc.kept⟩

end Sys2Proof.Machine
end

section
/-! The run of DECODE (45_codec.md section 2), and the message that it returns of a stego image (R157). -/

namespace Sys2Proof.Machine

/-! ### Assembling a message byte (44_bitstream.md R136) -/

/-- The weight that bit `t` of byte `j` adds when `n` bits are received. -/
def bitWeight (bit : Nat → Bool) (n j t : Nat) : Nat := if 8 * j + t < n ∧ bit (8 * j + t) = true then 2 ^ (7 - t) else 0

theorem assembledByte_eq (bit : Nat → Bool) (n j : Nat) :
    assembledByte bit n j = BitVec.ofNat 8 (∑ t ∈ Finset.range 8, bitWeight bit n j t) := rfl

theorem assembledByte_congr {bit bit' : Nat → Bool} {n n' j : Nat}
    (h : ∀ t < 8, (8 * j + t < n ∧ bit (8 * j + t) = true) ↔ (8 * j + t < n' ∧ bit' (8 * j + t) = true)) :
    assembledByte bit n j = assembledByte bit' n' j := by
  rw [assembledByte_eq, assembledByte_eq]
  refine congrArg _ (Finset.sum_congr rfl fun t ht => ?_)
  simp only [bitWeight, h t (Finset.mem_range.mp ht)]

/-- A byte none of whose bits is received is 0. -/
theorem assembledByte_of_le (bit : Nat → Bool) {n j : Nat} (h : n ≤ 8 * j) : assembledByte bit n j = 0#8 := by
  rw [assembledByte_eq, Finset.sum_eq_zero]
  intro t _
  exact if_neg fun ht => by omega

/-- Receiving bit `i` adds it to the byte that it belongs to. -/
theorem accumulate_assembledByte (bit : Nat → Bool) (i : Nat) :
    accumulate (assembledByte bit i (i / 8)) (bit i) i = assembledByte bit (i + 1) (i / 8) := by
  have hbit (t : Nat) (ht : t ∈ Finset.range 8) : bitWeight bit (i + 1) (i / 8) t =
      bitWeight bit i (i / 8) t + if t = i % 8 then (if bit i then 1 else 0) * 2 ^ (7 - i % 8) else 0 := by
    rw [Finset.mem_range] at ht
    by_cases hti : t = i % 8
    · subst hti
      rw [bitWeight, bitWeight, Nat.div_add_mod]
      simp
    · have hlt : 8 * (i / 8) + t < i + 1 ↔ 8 * (i / 8) + t < i := by omega
      simp [bitWeight, hlt, hti]
  rw [accumulate, assembledByte_eq, assembledByte_eq, Finset.sum_congr rfl hbit, Finset.sum_add_distrib, Finset.sum_ite_eq',
    if_pos (Finset.mem_range.mpr (Nat.mod_lt i (by decide))), BitVec.ofNat_add]

/-- A byte is made of its payload bits. -/
theorem assembledByte_payloadBitOf (byte : Byte) {n j : Nat} (h : 8 * j + 8 ≤ n) :
    assembledByte (payloadBitOf byte) n j = byte := by
  have hbit (t : Nat) (ht : t ∈ Finset.range 8) :
      bitWeight (payloadBitOf byte) n j t = byte.toNat / 2 ^ (7 - t) % 2 * 2 ^ (7 - t) := by
    rw [Finset.mem_range] at ht
    have hpos : (8 * j + t) % 8 = t := by omega
    rcases Nat.mod_two_eq_zero_or_one (byte.toNat / 2 ^ (7 - t)) with h0 | h1
    · simp [bitWeight, payloadBitOf, hpos, h0]
    · simp [bitWeight, payloadBitOf, hpos, h1, show 8 * j + t < n by omega]
  have hsum : ∑ t ∈ Finset.range 8, byte.toNat / 2 ^ (7 - t) % 2 * 2 ^ (7 - t) = byte.toNat := by
    simp only [Finset.sum_range_succ, Finset.sum_range_zero]
    omega
  rw [assembledByte_eq, Finset.sum_congr rfl hbit, hsum, BitVec.ofNat_toNat, BitVec.setWidth_eq]

/-! ### What a run of DECODE has done before entry `i` -/

/-- The bit that DECODE reads of entry `i`. -/
abbrev State.entryBit (s : State) (i : Nat) : Bool := dcParity s.params s.img s.width.toNat i

/-- The complete message bytes are stored, the accumulator holds the bits of the next, the other bytes keep their values. -/
structure Decoded (s₀ : State) (n i : Nat) (s : State) : Prop where
  img : s.img = s₀.img
  acc : i < n → s.acc = assembledByte s₀.entryBit i (i / 8)
  stored : ∀ j, 8 * j < i → 8 * j + 8 ≤ i ∨ i = n → s.msg.read j = some (assembledByte s₀.entryBit n j)
  kept : ∀ j, i ≤ 8 * j → s.msg.read j = s₀.msg.read j

theorem Decoded.start (s : State) (n : Nat) : Decoded s n 0 (startLoop n { s with acc := 0#8 }) := by
  obtain ⟨himg, hmsg⟩ := startLoop_memories n { s with acc := 0#8 }
  refine ⟨himg, fun hn => ?_, nofun, fun j _ => by rw [hmsg]⟩
  rw [startLoop_of_ne_zero hn.ne', assembledByte_of_le _ (Nat.zero_le _)]

theorem Decoded.advance {s₀ s : State} {n i : Nat} (h : Decoded s₀ n i s) : Decoded s₀ n i (advance s) := by
  refine ⟨?_, ?_, ?_, ?_⟩
  · rw [advance_img]; exact h.img
  · rw [advance_acc]; exact h.acc
  · rw [advance_msg]; exact h.stored
  · rw [advance_msg]; exact h.kept

/-- DECODE's body for entry `i` adds the bit of entry `i`. -/
theorem Decoded.decodeStepBody {s₀ s : State} {n i : Nat} (h : Decoded s₀ n i s) (hi : i < n) (hat : AtEntry s₀ n i s) :
    Decoded s₀ n (i + 1) (decodeStepBody s) := by
  obtain ⟨-, hn, hsi⟩ := hat.running hi
  have hbyte : accumulate s.acc (dcParity s.params s.img s.width.toNat s.i) s.i = assembledByte s₀.entryBit (i + 1) (i / 8) := by
    rw [h.acc hi, hat.params, h.img, hat.width, hsi, accumulate_assembledByte s₀.entryBit]
  have hacc := decodeStepBody_acc s
  have hmsg := decodeStepBody_msg s
  rw [hbyte] at hacc hmsg
  simp only [State.byteDue, hsi, hn] at hacc hmsg
  by_cases hdue : i % 8 = 7 ∨ i + 1 = n
  · rw [if_pos hdue] at hacc hmsg
    have hother {j : Nat} (hj : j ≠ i / 8) : (Machine.decodeStepBody s).msg.read j = s.msg.read j := by
      rw [hmsg, Memory.read_write_of_ne _ _ hj]
    refine ⟨(decodeStepBody_img s).trans h.img, fun hmore => ?acc, fun j hj hcomplete => ?stored, fun j hj => ?kept⟩
    case acc => rw [hacc, assembledByte_of_le _ (by omega)]
    case stored =>
      by_cases hji : j = i / 8
      · subst hji
        rw [hmsg, Memory.read_write_self, assembledByte_congr fun t ht => and_congr_left fun _ => ?_]
        omega
      · rw [hother hji]
        exact h.stored j (by omega) (.inl (by omega))
    case kept =>
      rw [hother (by omega)]
      exact h.kept j (by omega)
  · rw [if_neg hdue] at hacc hmsg
    refine ⟨(decodeStepBody_img s).trans h.img, fun hmore => ?acc, fun j hj hcomplete => ?stored, fun j hj => ?kept⟩
    case acc => rw [hacc, show (i + 1) / 8 = i / 8 by omega]
    case stored =>
      rw [hmsg]
      exact h.stored j (by omega) (.inl (by omega))
    case kept =>
      rw [hmsg]
      exact h.kept j (by omega)

/-! ### The run -/

/-- DECODE's step for entry `i` keeps the invariant. -/
theorem exec_decode_entry {s₀ s : State} {n i : Nat} (hwritten : s₀.entryWritten i) (hi : i < n) (hat : AtEntry s₀ n i s)
    (h : Decoded s₀ n i s) : ∃ t, exec .decode s = .next t ∧ AtEntry s₀ n (i + 1) t ∧ Decoded s₀ n (i + 1) t := by
  obtain ⟨hloop, -, hsi⟩ := hat.running hi
  have hentry : s.entryWritten s.i := by
    rw [State.entryWritten, h.img, hat.width, hsi]
    exact hwritten
  exact ⟨_, exec_decode_of_written hloop hentry,
    hat.next hi (decodeStepBody_frame s) (decodeStepBody_phase s) (decodeStepBody_n s) (decodeStepBody_i s),
    (h.decodeStepBody hi hat).advance⟩

/-- An accepted DECODE that passes its checks and reads only written bytes processes its `N` entries. -/
theorem run_decode {s : State} (hacc : s.accepted .decode) (hcheck : decodeCheck s = .noError)
    (hwritten : s.entriesWritten s.decBits.toNat) :
    ∃ t, Host.Core.run Sys2Proof.core (1 + s.decBits.toNat) s = .next t ∧
      AtEntry s s.decBits.toNat s.decBits.toNat t ∧ Decoded s s.decBits.toNat s.decBits.toNat t := by
  obtain ⟨hrst, hturns, hphase, hlatched⟩ := hacc
  have hstart : step s = .next (startLoop s.decBits.toNat { s with acc := 0#8 }) := by
    rw [step_of_running hrst hturns hlatched rfl rfl rfl (by simp [hphase]), exec_decode_of_check hphase,
      decodeStart_of_noError hcheck]
  have hframe : BodyFrame s { s with acc := 0#8 } := by constructor <;> rfl
  rw [Nat.add_comm, run_of_step _ hstart]
  exact run_entries hrst hturns hlatched (fun i u hi => exec_decode_entry (hwritten i hi) hi) _ 0 _ (Nat.zero_add _)
    (hframe.atEntry_startLoop _) (Decoded.start s _)

/-- Settles O51: the invariant of the run after its last entry. -/
theorem decodeReturnsTheParitiesOfTheEntries : Obligations.DecodeReturnsTheParitiesOfTheEntries := by
  intro s hs hacc hcheck hwritten
  obtain ⟨t, hrun, hat, hdec⟩ := run_decode hacc hcheck hwritten
  obtain ⟨hidle, hdone⟩ := hat.completed rfl
  refine ⟨t, hrun, hidle, hat.err.trans (hs.err_of_accepted hacc), hdone, hat.progress_toNat (decodeCheck_ok hcheck).2, hdec.img,
    fun j hj => ?_, fun j hj => ?_⟩
  · exact hdec.stored j (by rw [ceil8] at hj; omega) (.inr rfl)
  · exact hdec.kept j (by rw [ceil8] at hj; omega)

/-! ### The message comes back (45_codec.md R157) -/

/-- DECODE reads the payload bit of an entry that ENCODE has stored without a clamp. -/
theorem Encoded.dcParity_eq {s t : State} {n i : Nat} (h : Encoded s n t) (hi : i < n) (hcount : t.clampCnt = 0#32)
    (hd : 9 ≤ (s.params.qtab[0]).toNat) : dcParity s.params t.img s.width.toNat i = s.payload i := by
  have hclamp := h.unclamped (congrArg BitVec.toNat hcount) i hi
  have hload : loadedBlock t.img s.width.toNat i = storedBlock (s.stegoEntry i) := Vector.ext fun k hk => by
    have hk' := loadedBlock_getElem t.img s.width.toNat i ⟨k, hk⟩
    rw [h.stored i hi, Option.getD_some] at hk'
    simpa [storedBlock] using hk'
  rw [dcParity, hload]
  exact stegoBlock_keeps_bit (inSampleRange_loadedBlock _ _ _) hd hclamp

theorem decode_decodeWord : decode 0x00000002#32 = .ok .decode := decode_encode (i := .decode) rfl

/-- The state in which the host has the first `n` bits of the image read. -/
abbrev State.acceptDecode (s : State) (n : Nat) : State := accept 0x00000002#32 { s with decBits := BitVec.ofNat 32 n }

/-- DECODE of the bits that ENCODE has stored is accepted, passes its checks and reads only written bytes. -/
theorem Encoded.decodable {s t : State} {n : Nat} (hrst : s.rstN = true) (hturns : s.schedule = []) (hgeo : s.geometryOk)
    (hcap : n ≤ s.capacity) (hat : AtEntry s n n t) (h : Encoded s n t) :
    (t.acceptDecode n).accepted .decode ∧ (t.acceptDecode n).decBits.toNat = n ∧ decodeCheck (t.acceptDecode n) = .noError ∧
      (t.acceptDecode n).entriesWritten n := by
  have hbits : (t.acceptDecode n).decBits.toNat = n := by
    have hmax := capacity_le s
    exact Nat.mod_eq_of_lt (by omega)
  have hcapacity : (t.acceptDecode n).capacity = s.capacity := by
    simp only [State.capacity, accept_width, accept_height, hat.width, hat.height]
  refine ⟨⟨hat.rstN.trans hrst, hat.schedule.trans hturns, rfl, decode_decodeWord⟩, hbits, decodeCheck_noError ?_ ?_, fun i hi k => ?_⟩
  · simp only [State.geometryOk, accept_params, accept_width, accept_height, hat.params, hat.width, hat.height]
    exact hgeo
  · rw [hbits, hcapacity]
    exact hcap
  · have hread : t.img.read (sampleAddr t.width.toNat i k) = _ := hat.width ▸ h.stored i hi k
    exact Option.isSome_iff_exists.mpr ⟨_, hread⟩

/-- Settles O53: ENCODE's run leaves the stego blocks, DECODE's run assembles their bits. -/
theorem decodeOfEncodeReturnsTheMessage : Obligations.DecodeOfEncodeReturnsTheMessage := by
  intro s hs hacc hcheck hmsg hwritten hd
  obtain ⟨t, hrun, hat, henc⟩ := run_encode hacc hcheck hmsg hwritten
  refine ⟨t, hrun, fun hcount => ?_⟩
  obtain ⟨hgeo, hcap⟩ := encodeCheck_ok hcheck
  obtain ⟨hrst, hturns, -, -⟩ := hacc
  obtain ⟨haccepted, hbits, hchecked, hentries⟩ := henc.decodable hrst hturns hgeo hcap hat
  obtain ⟨v, hrun', hat', hdec⟩ := run_decode haccepted hchecked (by rwa [hbits])
  rw [hbits] at hrun' hat' hdec
  refine ⟨v, hrun', (hat'.completed rfl).1, hat'.err, fun j hj => ?_⟩
  obtain ⟨byte, hbyte⟩ := Option.isSome_iff_exists.mp (hmsg j hj)
  have hbit {i : Nat} (hi : i < 8 * s.encLen.toNat) (hij : i / 8 = j) :
      (t.acceptDecode (8 * s.encLen.toNat)).entryBit i = payloadBitOf byte i := by
    have hparity : dcParity t.params t.img t.width.toNat i = s.payload i := by
      rw [hat.params, hat.width, henc.dcParity_eq hi hcount hd]
    exact hparity.trans (by rw [State.payload, hij, hbyte, Option.getD_some])
  rw [hdec.stored j (by omega) (.inr rfl), hbyte]
  refine congrArg some ((assembledByte_congr fun k hk => and_congr_right fun hlt => ?_).trans
    (assembledByte_payloadBitOf byte (n := 8 * s.encLen.toNat) (by omega)))
  rw [hbit hlt (by omega)]

end Sys2Proof.Machine
end
